-- ==== Sys2Proof/Word.lean ====
section
/-! DEFINITION. The word types of the block (00_scope.md rule R8). -/

namespace Sys2Proof

/-- A byte: an image, buffer or wire byte (00_scope.md rule R8). -/
abbrev Byte := BitVec 8

/-- A host register value and a command word (10_state.md rule R11, 30_encoding.md rule R63). -/
abbrev Half := BitVec 16

/-- A value of the millisecond time base (10_state.md rule R27). -/
abbrev Millis := BitVec 32

end Sys2Proof
end

