-- ==== Sys2Proof/Config.lean ====
section
/-! DEFINITION. What no rule of the spec fixes: the free values. The constants of 00_scope.md rule R7 stand
in Machine/Params.lean. -/

namespace Sys2Proof.Config

/-- The values of host reads with no stated result (93_implementation_defined.md U3, U4; log 13) and of bytes staged while
the image changes (U5; log 6): the
n-th free value drawn in a run is `freeValue n`. It has no body, so nothing can be proved of its value. (log 1) -/
opaque freeValue : Nat → Half

end Sys2Proof.Config
end

