-- ==== Sys2Proof/Syntax.lean ====
section
/-! DEFINITION. The seventeen commands (30_encoding.md rules R64, R65). -/

namespace Sys2Proof

/-- A command of the block, one constructor per row of the opcode table. No command has a field: operands are the
registers `ARG0` and `ARG1` (30_encoding.md rules R63, R66). -/
inductive Instr where
  /-- SBCLR, 41_serializer.md rule R95 -/
  | sbclr
  /-- TOTCNT, 40_decoder.md rule R86 -/
  | totcnt
  /-- STOCNT, 40_decoder.md rule R87 -/
  | stocnt
  /-- LOGIDX, 40_decoder.md rule R88 -/
  | logidx
  /-- PROFEND, 40_decoder.md rule R89 -/
  | profend
  /-- PROFFIND, 40_decoder.md rule R90 -/
  | proffind
  /-- LOGVALID, 40_decoder.md rule R91 -/
  | logvalid
  /-- PROFVALID, 40_decoder.md rule R92 -/
  | profvalid
  /-- WRLOG, 41_serializer.md rule R96 -/
  | wrlog
  /-- WRPROF, 41_serializer.md rule R97 -/
  | wrprof
  /-- WRIDENT, 41_serializer.md rule R98 -/
  | wrident
  /-- MSGENC, 42_codec.md rule R102 -/
  | msgenc
  /-- PKTSEND, 43_transport.md rule R119 -/
  | pktsend
  /-- BULKSEND, 43_transport.md rule R120 -/
  | bulksend
  /-- ENVOPEN, 44_export.md rule R125 -/
  | envopen
  /-- ENVCLOSE, 44_export.md rule R126 -/
  | envclose
  /-- EXPORT, 44_export.md rule R127 -/
  | exportRun
deriving DecidableEq, Repr

/-- All seventeen commands, in the order of the opcode table. -/
def Instr.all : List Instr :=
  [.sbclr, .totcnt, .stocnt, .logidx, .profend, .proffind, .logvalid, .profvalid, .wrlog, .wrprof, .wrident,
   .msgenc, .pktsend, .bulksend, .envopen, .envclose, .exportRun]

end Sys2Proof
end

