-- ==== Sys2Proof/WellFormed.lean ====
section
/-! DEFINITION. What a well-formed command is, and which command words have the form of rule R63. -/

namespace Sys2Proof

/-- Format C has no operand field (30_encoding.md rule R63), so every command is well formed as it stands: the
domains of `ARG0` and `ARG1` are tested by the commands themselves, at run time (rule R66). -/
def Instr.wf (i : Instr) : Bool := Instr.all.contains i

/-- The field `zero` of a command word is 0x00 (30_encoding.md rules R63, R68). -/
def wordZeroField (v : Half) : Bool := v.extractLsb' 8 8 == 0

/-- The field `opcode` of a command word is one of the map of 30_encoding.md rule R65 (rule R67). -/
def wordKnownOpcode (v : Half) : Bool :=
  ([0x01, 0x10, 0x11, 0x12, 0x13, 0x14, 0x15, 0x16, 0x20, 0x21, 0x22, 0x30, 0x31, 0x32, 0x40, 0x41, 0x42] :
    List Byte).contains (v.extractLsb' 0 8)

/-- A well-formed command word. -/
def wordWf (v : Half) : Bool := wordZeroField v && wordKnownOpcode v

end Sys2Proof
end

