-- ==== Sys2Proof/Decode.lean ====
section
/-! DEFINITION. Command words to commands and back (30_encoding.md rules R63, R65, R67, R68). -/

namespace Sys2Proof

/-- Why a command word is illegal. -/
inductive IllegalWord where
  /-- `CMD[7:0]` is no opcode: `IllegalCommand`, sub-cause 1 (30_encoding.md rule R67) -/
  | undefinedOpcode
  /-- `CMD[15:8]` is not zero: `IllegalCommand`, sub-cause 2 (30_encoding.md rule R68) -/
  | upperByte
deriving DecidableEq, Repr

/-- The field `opcode`, `CMD[7:0]` (30_encoding.md rule R63). -/
def opcodeField (v : Half) : Byte := v.extractLsb' 0 8

/-- The field `zero`, `CMD[15:8]` (30_encoding.md rule R63). -/
def zeroField (v : Half) : Byte := v.extractLsb' 8 8

/-- The opcode map (30_encoding.md rule R65). -/
def decodeOpcode (b : Byte) : Option Instr :=
  match b.toNat with
  | 0x01 => some .sbclr
  | 0x10 => some .totcnt
  | 0x11 => some .stocnt
  | 0x12 => some .logidx
  | 0x13 => some .profend
  | 0x14 => some .proffind
  | 0x15 => some .logvalid
  | 0x16 => some .profvalid
  | 0x20 => some .wrlog
  | 0x21 => some .wrprof
  | 0x22 => some .wrident
  | 0x30 => some .msgenc
  | 0x31 => some .pktsend
  | 0x32 => some .bulksend
  | 0x40 => some .envopen
  | 0x41 => some .envclose
  | 0x42 => some .exportRun
  | _ => none

/-- Decoding of a command word. The test of the upper byte comes before the opcode lookup
(30_encoding.md rule R68, 60_exceptions.md rule R142). -/
def decode (v : Half) : Except IllegalWord Instr :=
  if zeroField v = 0 then
    match decodeOpcode (opcodeField v) with
    | some i => .ok i
    | none => .error .undefinedOpcode
  else .error .upperByte

/-- The opcode of a command (30_encoding.md rule R65). -/
def opcode : Instr → Byte
  | .sbclr => 0x01
  | .totcnt => 0x10
  | .stocnt => 0x11
  | .logidx => 0x12
  | .profend => 0x13
  | .proffind => 0x14
  | .logvalid => 0x15
  | .profvalid => 0x16
  | .wrlog => 0x20
  | .wrprof => 0x21
  | .wrident => 0x22
  | .msgenc => 0x30
  | .pktsend => 0x31
  | .bulksend => 0x32
  | .envopen => 0x40
  | .envclose => 0x41
  | .exportRun => 0x42

/-- The command word of a command: `zero || opcode` (30_encoding.md rule R63). -/
def encode (i : Instr) : Half := (0 : Byte) ++ opcode i

/-- The command the decoder reads from a table word of `nbits` bits, the bits above them zero. -/
def decodeTableWord (nbits w : Nat) : Option Instr :=
  if nbits ≤ 16 ∧ w < 2 ^ nbits then (decode (BitVec.ofNat 16 w)).toOption else none

end Sys2Proof
end

