-- ==== Sys2Proof/Machine/Params.lean ====
section
/-! DEFINITION. The constants of the block as named parameters with the document's values (00_scope.md rule R7,
92_eei_decisions.md D38; log 21). -/

namespace Sys2Proof.Param

/-- `IMG_SIZE`: the image has addresses 0x000 to 0x7FF. -/
abbrev imgSize : Nat := 0x800
/-- `PROF_BASE`: first byte of the depth-profile ring. -/
abbrev profBase : Nat := 0x000
/-- `PROF_END`: one past the last byte of the depth-profile ring. -/
abbrev profEnd : Nat := 0x600
/-- `LOG_BASE`: first byte of the logbook ring. -/
abbrev logBase : Nat := 0x600
/-- `LOG_END`: one past the logbook ring. -/
abbrev logEnd : Nat := 0x7BC
/-- `LOG_RING_LEN` (90_conflicts.md C1: 0x1BC, not 0x1EC). -/
abbrev logRingLen : Nat := 0x1BC
/-- `LOG_SLOTS` -/
abbrev logSlots : Nat := 37
/-- `LOG_ENTRY` -/
abbrev logEntry : Nat := 12
/-- `SENTINEL` -/
abbrev sentinel : Byte := 0xFF
/-- `ADDR_MODEL` -/
abbrev addrModel : Nat := 0x7BC
/-- `ADDR_SERIAL` -/
abbrev addrSerial : Nat := 0x7ED
/-- `ADDR_TOTAL` -/
abbrev addrTotal : Nat := 0x7F2
/-- `ADDR_CURSOR` -/
abbrev addrCursor : Nat := 0x7F4
/-- `ADDR_STORED` -/
abbrev addrStored : Nat := 0x7F5
/-- `ADDR_PROFEND` -/
abbrev addrProfEnd : Nat := 0x7F6
/-- `ADDR_TIME` -/
abbrev addrTime : Nat := 0x7F8
/-- `CHUNK_MAX` -/
abbrev chunkMax : Nat := 126
/-- `MSG_MAX` -/
abbrev msgMax : Nat := 123
/-- `MSG_CMD` -/
abbrev msgCmd : Byte := 0x00
/-- `EXPORT_CMD`, the letter U. PRESUMED: 0x55 is ASCII (92_eei_decisions.md D39; log 14). -/
abbrev exportCmd : Byte := 0x55
/-- `ACK` -/
abbrev ackByte : Byte := 0x06
/-- `NOISE`, first value -/
abbrev noiseLow : Byte := 0x00
/-- `NOISE`, second value -/
abbrev noiseHigh : Byte := 0xFF
/-- `ALADIN_TIMEOUT`, milliseconds -/
abbrev ackTimeout : Nat := 10000
/-- `POLL_INTERVAL`, milliseconds -/
abbrev pollInterval : Nat := 10
/-- `ALADIN_MAX_RETRIES` -/
abbrev maxRetries : Nat := 10
/-- `SB_CAP` -/
abbrev sbCap : Nat := 6144
/-- `FB_CAP` -/
abbrev fbCap : Nat := 128
/-- `DIVEIDX_W`: width of a dive index operand. -/
abbrev diveIdxW : Nat := 8
/-- `IDX_W`: width of an index operand or result. -/
abbrev idxW : Nat := 16

end Sys2Proof.Param
end

