-- ==== Sys2Proof/Machine/State.lean ====
section
/-! DEFINITION. The state of the block and of its environment (10_state.md), plain data. -/

namespace Sys2Proof.Machine

/-- Error codes `ERR` (60_exceptions.md rule R132); codes 7 to 15 are never produced. -/
inductive ErrCode where
  /-- 0 -/
  | noError
  /-- 1 DiveCountNullError -/
  | diveCountNull
  /-- 2 DataError -/
  | dataError
  /-- 3 SendError -/
  | sendError
  /-- 4 IllegalCommand -/
  | illegalCommand
  /-- 5 OperandError -/
  | operandError
  /-- 6 BufferOverflow -/
  | bufferOverflow
deriving DecidableEq, Repr

/-- Transport states `TSTATE` (43_transport.md rule R107); codes 5 to 7 are never produced. -/
inductive TState where
  /-- 0: no transfer -/
  | idle
  /-- 1: the bytes of `FB` are being handed to `writeByte` -/
  | sending
  /-- 2: the packet has been sent; polling for the response byte -/
  | awaitingAck
  /-- 3: the transfer succeeded -/
  | done
  /-- 4: the transfer was abandoned -/
  | failed
deriving DecidableEq, Repr

/-- The sixteen host registers (10_state.md rule R11), in the order of their numbers. -/
inductive HostReg where
  /-- 0x0 -/
  | cmd
  /-- 0x1 -/
  | arg0
  /-- 0x2 -/
  | arg1
  /-- 0x3 -/
  | status
  /-- 0x4 -/
  | res0
  /-- 0x5 -/
  | res1
  /-- 0x6 -/
  | errinfo
  /-- 0x7 -/
  | dive
  /-- 0x8 -/
  | sblen
  /-- 0x9 -/
  | sbptr
  /-- 0xA -/
  | sbdata
  /-- 0xB -/
  | fblen
  /-- 0xC -/
  | fbptr
  /-- 0xD -/
  | fbdata
  /-- 0xE -/
  | retry
  /-- 0xF -/
  | choff
deriving DecidableEq, Repr

/-- One action of the environment (00_scope.md section 8, agents b, c, d; 70_reset_and_hazards.md rules R150, R155). -/
inductive Event where
  /-- `HostWrite(r, v)` (10_state.md rule R11) -/
  | hostWrite (r : HostReg) (v : Half)
  /-- `HostRead(r)` (10_state.md rule R11) -/
  | hostRead (r : HostReg)
  /-- `rst` is asserted (70_reset_and_hazards.md rule R150) -/
  | rst
  /-- the byte transport delivers a byte into `RX` (10_state.md rule R27) -/
  | arrive (b : Byte)
  /-- the time base moves forward by `d` milliseconds (10_state.md rule R31) -/
  | advance (d : Millis)
  /-- the transmit side becomes ready, or not ready, to accept a byte (10_state.md rule R32, `tx_ready`) -/
  | txReady (ready : Bool)
  /-- the image port presents a byte at an address (70_reset_and_hazards.md rule R155) -/
  | imageByte (a : BitVec 11) (b : Byte)
  /-- no environment action: the sequencer takes this step (43_transport.md rule R124) -/
  | turn
deriving DecidableEq, Repr

/-- The image space as a list of cells in one canonical form (`Memory.wf` in Machine/Ops.lean). -/
abbrev Memory := List Host.Cell

/-- The block (10_state.md rule R10) together with the environment state its primitives touch (rules R27, R30, R31). -/
structure State where
  /-- `CMD`, 10_state.md rule R12 -/
  cmd : Half
  /-- `ARG0`, rule R13 -/
  arg0 : Half
  /-- `ARG1`, rule R13 -/
  arg1 : Half
  /-- `STATUS[0]`, rule R14 -/
  busy : Bool
  /-- `STATUS[1]`, rule R14 -/
  done : Bool
  /-- `STATUS[2]`, rules R14, R15 -/
  flag : Bool
  /-- `STATUS[7:4]`, rule R14 and 60_exceptions.md rule R132 -/
  err : ErrCode
  /-- `STATUS[10:8]`, rule R14 and 43_transport.md rule R107 -/
  tstate : TState
  /-- `RES0`, rule R15 -/
  res0 : Half
  /-- `RES1`, rule R15 -/
  res1 : Half
  /-- `ERRINFO`, rule R16 -/
  errinfo : BitVec 4
  /-- `DIVE`, rule R17 -/
  dive : BitVec 8
  /-- `SB[0..SBLEN)`, rule R24; its length is `SBLEN`, rule R18 (log 3) -/
  sb : List Byte
  /-- `SBPTR`, rule R19 -/
  sbptr : BitVec 13
  /-- `FB[0..FBLEN)`, rule R25; its length is `FBLEN`, rule R20 (log 3) -/
  fb : List Byte
  /-- `FBPTR`, rule R21 -/
  fbptr : BitVec 8
  /-- `RETRY`, rule R22 -/
  retry : BitVec 4
  /-- `CHOFF`, rule R23 -/
  choff : BitVec 13
  /-- `OP`, rule R26 -/
  op : BitVec 8
  /-- `T0`, rule R26 -/
  t0 : Millis
  /-- `CHCNT`, rule R26 -/
  chcnt : BitVec 13
  /-- the model's own: how many bytes of `FB` this transmission has handed over (43_transport.md rule R108; log 11) -/
  txpos : Nat
  /-- the model's own: `NOW` at a call of `sleepMillis(10)` that has not returned (10_state.md rule R32; log 12) -/
  sleeping : Option Millis
  /-- the model's own: `count` of 44_export.md rule R127, the stored dive count as EXPORT has read it at its step 3 -/
  count : BitVec 8
  /-- the model's own: a byte that EXPORT reads has changed since its staging began (70_reset_and_hazards.md rule R155;
  log 6) -/
  imageChanged : Bool
  /-- environment: the image `IMG` (10_state.md rule R30; log 6) -/
  img : Memory
  /-- environment: the transmit trace `TX`, oldest byte first (rule R27) -/
  tx : List Byte
  /-- environment: the receive queue `RX`, head first (rule R27) -/
  rx : List Byte
  /-- environment: the time base `NOW` (rule R27) -/
  now : Millis
  /-- environment: the transport accepts a byte (rule R32, `tx_ready`; log 11) -/
  txReady : Bool
  /-- environment: the actions still to come (log 8) -/
  env : List Event
  /-- environment: the values `HostRead` has returned, oldest first (rule R32, `host_rdata`; log 20) -/
  hostOut : List Half
  /-- the model's own: how many free values have been drawn (log 1) -/
  freeCtr : Nat
deriving DecidableEq, Repr

/-- Why a step stops. It is no stop of the spec's: it marks an access that no command makes. -/
inductive Fault where
  /-- A read of the image at an address of 0x800 or above, which does not exist (20_memory.md rule R35). Raised by
  `Memory.byteAt`; no command forms such an address (rule R62). Safe. (log 7) -/
  | imageAddress (a : Nat)
deriving DecidableEq, Repr

/-- Why a step gives no meaning. -/
inductive Refusal where
  /-- Raised by `exec` for a command that has no meaning yet; no arm raises it. Safe. -/
  | notModelled (mnemonic : String)
deriving DecidableEq, Repr

/-- The outcome of a step of this machine. -/
abbrev Result := Host.Outcome State Fault Refusal

/-- The machine right after reset (10_state.md rule R34). The values of `T0`, of the buffers' contents and of the
environment are the model's (log 2, log 3, log 4). -/
def State.reset : State where
  cmd := 0
  arg0 := 0
  arg1 := 0
  busy := false
  done := false
  flag := false
  err := .noError
  tstate := .idle
  res0 := 0
  res1 := 0
  errinfo := 0
  dive := 0
  sb := []
  sbptr := 0
  fb := []
  fbptr := 0
  retry := 0
  choff := 0
  op := 0
  t0 := 0
  chcnt := 0
  txpos := 0
  sleeping := none
  count := 0
  imageChanged := false
  img := []
  tx := []
  rx := []
  now := 0
  txReady := true
  env := []
  hostOut := []
  freeCtr := 0

end Sys2Proof.Machine
end

