-- ==== Sys2Proof/Machine/Ops.lean ====
section
/-! DEFINITION. The named operations: bytes and words, the image, the buffers, accepting and completing a command. -/

namespace Sys2Proof.Machine

open Sys2Proof.Param

/-! ## Bytes and words (00_scope.md rule R8) -/

/-- `lo8(v) = v mod 256` (00_scope.md rule R8). -/
def lo8 (v : Nat) : Byte := BitVec.ofNat 8 (v % 256)

/-- `hi8(v) = (v div 256) mod 256` (00_scope.md rule R8). -/
def hi8 (v : Nat) : Byte := BitVec.ofNat 8 (v / 256 % 256)

/-- The exclusive OR of all bytes of a list, 0x00 for the empty list (42_codec.md rule R100). -/
def xor8 : List Byte → Byte
  | [] => 0
  | b :: bs => b ^^^ xor8 bs

/-- `sub32(a, b) = (a − b) mod 2^32` (00_scope.md rule R8). -/
def sub32 (a b : Millis) : Millis := a - b

/-- `zext_16` (00_scope.md rule R9). -/
def zext16 {w : Nat} (v : BitVec w) : Half := v.setWidth 16

/-! ## The image (20_memory.md rules R35, R52, R53) -/

/-- What an address with no entry reads as. DESIGN CHOICE (log 5). -/
def Memory.unlisted : Byte := 0x00

/-- The byte a list of cells holds at an address. -/
def Memory.get : Memory → Nat → Byte
  | [], _ => Memory.unlisted
  | (k, b) :: m, a => if a = k then b else Memory.get m a

/-- The list of cells with the byte at one address replaced, kept canonical: addresses rising, no entry equal to what
an unlisted address reads as. -/
def Memory.put : Memory → Nat → Byte → Memory
  | [], a, b => if b = Memory.unlisted then [] else [(a, b)]
  | (k, c) :: m, a, b =>
    if a < k then (if b = Memory.unlisted then (k, c) :: m else (a, b) :: (k, c) :: m)
    else if a = k then (if b = Memory.unlisted then m else (a, b) :: m)
    else (k, c) :: Memory.put m a b

/-- The canonical form from address `lo` upward. -/
def Memory.wfFrom (lo : Nat) : Memory → Bool
  | [] => true
  | (a, b) :: m => decide (lo ≤ a) && decide (a < imgSize) && (b != Memory.unlisted) && Memory.wfFrom (a + 1) m

/-- The canonical form of the image: addresses strictly rising and below 0x800, no entry equal to what an unlisted
address reads as. -/
def Memory.wf (m : Memory) : Bool := Memory.wfFrom 0 m

/-- `IMG[a]` (20_memory.md rule R35); an address outside the image space does not exist (log 7). -/
def Memory.byteAt (m : Memory) (a : Nat) : Except Fault Byte :=
  if a < imgSize then .ok (m.get a) else .error (.imageAddress a)

/-- The bytes at a list of addresses, read in the order of the list. -/
def Memory.bytesAt (m : Memory) : List Nat → Except Fault (List Byte)
  | [] => .ok []
  | a :: as => do
    let b ← m.byteAt a
    let bs ← Memory.bytesAt m as
    return b :: bs

/-- Go on with a value read from the image, or stop with the fault of the read. -/
def orFault {α : Type} (r : Except Fault α) (k : α → Result) : Result :=
  match r with
  | .ok v => k v
  | .error f => .fault f

/-! ## The staging buffer (10_state.md rules R18, R24; 41_serializer.md rule R94) -/

/-- `SBLEN` as a number (10_state.md rule R18). -/
def State.sblen (s : State) : Nat := s.sb.length

/-- `FBLEN` as a number (10_state.md rule R20). -/
def State.fblen (s : State) : Nat := s.fb.length

/-- `append(v)` for each byte of a list, in order (00_scope.md rule R9, 41_serializer.md rule R94). -/
def State.append (s : State) (bs : List Byte) : State := { s with sb := s.sb ++ bs }

/-- `SBLEN + k ≤ SB_CAP`: `k` more bytes fit (41_serializer.md rule R94). -/
def State.fits (s : State) (k : Nat) : Bool := decide (s.sblen + k ≤ sbCap)

/-- A new staging buffer: `SBLEN <- 0 ; SBPTR <- 0` (41_serializer.md rule R95, 92_eei_decisions.md D35). -/
def State.clearStaging (s : State) : State := { s with sb := [], sbptr := 0 }

/-! ## Accepting a command and completing it (10_state.md rule R12, 60_exceptions.md rule R138) -/

/-- A command is accepted: `CMD <- v ; OP <- v[7:0] ; BUSY <- 1 ; DONE <- 0 ; ERR <- 0 ; FLAG <- 0`
(10_state.md rule R12). This is also all that follows an error: no register has to be cleared and nothing is
returned from (60_exceptions.md rule R139). -/
def State.accept (s : State) (v : Half) : State :=
  { s with cmd := v, op := opcodeField v, busy := true, done := false, err := .noError, flag := false }

/-- The result registers and the flag, written by every command at its completion (10_state.md rule R15). -/
def State.results (s : State) (r0 r1 : Half) (f : Bool) : State := { s with res0 := r0, res1 := r1, flag := f }

/-- `complete(err, info)`, the end of every command with or without error (60_exceptions.md rule R138). The block's
only form of an exception: nothing is saved, no mode changes and no vector is fetched. -/
def State.complete (s : State) (e : ErrCode) (info : BitVec 4) : State :=
  { s with err := e, errinfo := info, busy := false, done := true }

/-- A normal end: the results of 10_state.md rule R15, then `complete(NoError, 0)`. -/
def State.succeed (s : State) (r0 r1 : Half) (f : Bool) : State := (s.results r0 r1 f).complete .noError 0

/-- An end with an error whose results are 0, 0, 0 (10_state.md rule R15, 60_exceptions.md rules R136, R138). -/
def State.reject (s : State) (e : ErrCode) (info : BitVec 4) : State := (s.results 0 0 false).complete e info

/-- The sub-cause of an illegal command word (60_exceptions.md rule R136). -/
def illegalInfo : IllegalWord → BitVec 4
  | .undefinedOpcode => 1
  | .upperByte => 2

/-- The completion of an accepted illegal command word (30_encoding.md rules R67, R68). -/
def State.rejectWord (s : State) (w : IllegalWord) : State := s.reject .illegalCommand (illegalInfo w)

/-! ## Reset (70_reset_and_hazards.md rules R150, R151) -/

/-- `rst`: every piece of the block's state takes its reset value, a command in execution is abandoned; `TX`, `RX`,
`NOW`, the image and what else is the environment's are not touched. -/
def State.resetBlock (s : State) : State :=
  { State.reset with
    img := s.img, tx := s.tx, rx := s.rx, now := s.now, txReady := s.txReady, env := s.env, hostOut := s.hostOut,
    freeCtr := s.freeCtr }

/-! ## Free values (93_implementation_defined.md U3, U4, U5; log 1) -/

/-- A free value of `w` bits, zero-extended: the bits of a register above its width read 0 (10_state.md rule R11). -/
def State.freeBits (s : State) (w : Nat) : Half := zext16 ((Config.freeValue s.freeCtr).setWidth w)

/-- `n` free bytes. -/
def State.freeBytes (s : State) (n : Nat) : List Byte :=
  (List.range n).map fun k => (Config.freeValue (s.freeCtr + k)).setWidth 8

/-- `k` free values have been drawn: the next ones will be others. -/
def State.drawn (s : State) (k : Nat) : State := { s with freeCtr := s.freeCtr + k }

/-- `n` free bytes are appended to the staging buffer. -/
def State.appendFree (s : State) (n : Nat) : State := (s.append (s.freeBytes n)).drawn n

end Sys2Proof.Machine
end

