-- ==== Sys2Proof/Machine/Flags.lean ====
section
/-! DEFINITION. The predicates behind `FLAG` and the packing of `STATUS` (10_state.md rules R14, R29). -/

namespace Sys2Proof.Machine

open Sys2Proof.Param

/-- `isLogbookIndexValid(idx)` (20_memory.md rule R49). -/
def isLogbookIndexValid (idx : Nat) : Bool := decide (logBase ≤ idx) && decide (idx < logEnd)

/-- `isDepthProfileIndexValid(idx)` (20_memory.md rule R49). -/
def isDepthProfileIndexValid (idx : Nat) : Bool := decide (idx < profEnd)

/-- The code of an error (60_exceptions.md rule R132). -/
def errBits : ErrCode → BitVec 4
  | .noError => 0
  | .diveCountNull => 1
  | .dataError => 2
  | .sendError => 3
  | .illegalCommand => 4
  | .operandError => 5
  | .bufferOverflow => 6

/-- The code of a transport state (43_transport.md rule R107). -/
def tstateBits : TState → BitVec 3
  | .idle => 0
  | .sending => 1
  | .awaitingAck => 2
  | .done => 3
  | .failed => 4

/-- `STATUS` as the host reads it (10_state.md rule R14): reserved bits [3] and [15:11] read 0. -/
def State.statusWord (s : State) : Half :=
  (0 : BitVec 5) ++ tstateBits s.tstate ++ errBits s.err ++ (0 : BitVec 1) ++ BitVec.ofBool s.flag ++
    BitVec.ofBool s.done ++ BitVec.ofBool s.busy

end Sys2Proof.Machine
end

