-- ==== Sys2Proof/Machine/Operands.lean ====
section
/-! DEFINITION. The operand forms of 30_encoding.md rule R66. -/

namespace Sys2Proof.Machine

open Sys2Proof.Param

/-- A dive index operand: `N = ARG0[7:0]`, and `ARG0[15:8]` must be 0; `none` where it is not. -/
def State.diveIndex (s : State) : Option Nat :=
  if s.arg0.extractLsb' diveIdxW (idxW - diveIdxW) = 0 then some (s.arg0.extractLsb' 0 diveIdxW).toNat else none

/-- An index operand: the full `ARG0[15:0]`. -/
def State.indexOperand (s : State) : Nat := (s.arg0.setWidth idxW).toNat

/-- The byte count of WRPROF: the full `ARG1[15:0]`. -/
def State.countOperand (s : State) : Nat := s.arg1.toNat

end Sys2Proof.Machine
end

