-- ==== Sys2Proof/Machine/Codec.lean ====
section
/-! DEFINITION. PacketCodec: the short message and the bulk chunk (42_codec.md, 30_encoding.md rules R69, R70). -/

namespace Sys2Proof.Machine

open Sys2Proof.Param

/-- The inner checksum of a short message, over inner size, command and text (42_codec.md rule R102). -/
def innerChecksum (text : List Byte) : Byte := BitVec.ofNat 8 text.length ^^^ msgCmd ^^^ xor8 text

/-- The outer checksum of a short message: `outerSize ^ innerChecksum` and nothing else (42_codec.md rule R103). -/
def outerChecksum (text : List Byte) : Byte := BitVec.ofNat 8 (text.length + 3) ^^^ innerChecksum text

/-- The outer packet of a short message (30_encoding.md rule R70, 42_codec.md rule R102). -/
def messageFrame (text : List Byte) : List Byte :=
  [BitVec.ofNat 8 (text.length + 3), BitVec.ofNat 8 text.length, msgCmd] ++ text ++
    [innerChecksum text, outerChecksum text]

/-- A bulk chunk: size, payload, checksum with the size XORed in (30_encoding.md rule R69, 42_codec.md rule R104). -/
def chunkPacket (payload : List Byte) : List Byte :=
  [BitVec.ofNat 8 payload.length] ++ payload ++ [BitVec.ofNat 8 payload.length ^^^ xor8 payload]

/-- The payload of the chunk that starts at an offset: at most `CHUNK_MAX` bytes (42_codec.md rules R104, R106). -/
def chunkPayload (sb : List Byte) (off : Nat) : List Byte := (sb.drop off).take chunkMax

/-- `BuildChunk()` (42_codec.md rule R106): it changes `FB` and `FBLEN` only. -/
def State.buildChunk (s : State) : State := { s with fb := chunkPacket (chunkPayload s.sb s.choff.toNat) }

/-- MSGENC (42_codec.md rule R102): the empty text, then the length test, then the zero-byte test. -/
def execMsgenc (s : State) : Result :=
  if s.sblen = 0 then .next ({ s with fb := [], fbptr := 0 }.succeed 0 0 false)
  else if s.sblen > msgMax then .next (s.reject .operandError 3)
  else if s.sb.contains 0x00 then .next (s.reject .operandError 4)
  else .next ({ s with fb := messageFrame s.sb, fbptr := 0 }.succeed (BitVec.ofNat 16 (s.sblen + 5)) 0 false)

end Sys2Proof.Machine
end

