-- ==== Sys2Proof/Machine/RingDecoder.lean ====
section
/-! DEFINITION. RingBufferLogDecoder: the address arithmetic of the two rings and the seven commands of 40_decoder.md. -/

namespace Sys2Proof.Machine

open Sys2Proof.Param

/-! ## Fixed-offset fields (20_memory.md rules R38 to R41) -/

/-- `totalDiveCount(image)` (20_memory.md rule R38): big-endian. -/
def totalDiveCount (m : Memory) : Except Fault Nat := do
  let hi ← m.byteAt addrTotal
  let lo ← m.byteAt (addrTotal + 1)
  return hi.toNat * 256 + lo.toNat

/-- `storedDiveCount(image)` (20_memory.md rule R39). -/
def storedDiveCount (m : Memory) : Except Fault Nat := do
  let c ← m.byteAt addrStored
  return c.toNat

/-- `depthProfileEndIndex(image)`, the end cursor `E` (20_memory.md rule R41). -/
def depthProfileEndIndex (m : Memory) : Except Fault Nat := do
  let lo ← m.byteAt addrProfEnd
  let hi ← m.byteAt (addrProfEnd + 1)
  return (lo.toNat + (hi.toNat >>> 1) * 256) &&& 0x7FF

/-! ## The logbook ring (20_memory.md rules R44, R45) -/

/-- `newestIndex`, an offset from the start of the logbook ring (20_memory.md rule R44). -/
def newestIndex (cursor : Nat) : Nat := ((cursor + (logSlots - 1)) % logSlots) * logEntry

/-- `logbookStartIndex(image, diveIndex)` with the floored `mod` of 00_scope.md rule R8 (40_decoder.md rule R88). -/
def logbookStartIndex (m : Memory) (n : Nat) : Except Fault Nat := do
  let cursor ← m.byteAt addrCursor
  return (((newestIndex cursor.toNat : Int) - logEntry * n) % logRingLen).toNat + logBase

/-- `logaddr(a)` (20_memory.md rule R45). -/
def logaddr (a : Nat) : Nat := (if a ≥ logEnd then a - logRingLen else a) % logEnd

/-! ## The depth-profile ring (20_memory.md rules R46 to R48, 40_decoder.md rule R90) -/

/-- `prev(i)` (20_memory.md rule R47). -/
def prev (i : Nat) : Nat := (if i = profBase then profEnd else i) - 1

/-- `next(i)` (20_memory.md rule R48). -/
def next (i : Nat) : Nat := if i + 1 = profEnd then profBase else i + 1

/-- One backward scan from `idx`, with `len` bytes already counted: the sentinel's index and the length, or `none` if
it comes back to `e`. The order of a step is that of 40_decoder.md rule R90. The fuel bounds the steps: `profEnd` of
them bring any ring index back to `e` (rule R93 item 4), so a scan started with that fuel never exhausts it. -/
def scanBack (m : Memory) (e : Nat) : Nat → Nat → Nat → Except Fault (Option (Nat × Nat))
  | 0, _, _ => .ok none
  | fuel + 1, idx, len =>
    if prev idx = e then .ok none
    else
      match m.byteAt (prev idx) with
      | .error f => .error f
      | .ok b => if b = sentinel then .ok (some (prev idx, len + 1)) else scanBack m e fuel (prev idx) (len + 1)

/-- `n + 1` scans, the index carried from one to the next and the length restarted (40_decoder.md rule R90). -/
def scanSegments (m : Memory) (e : Nat) : Nat → Nat → Except Fault (Option (Nat × Nat))
  | 0, idx => scanBack m e profEnd idx 0
  | n + 1, idx =>
    match scanBack m e profEnd idx 0 with
    | .ok (some (idx', _)) => scanSegments m e n idx'
    | .ok none => .ok none
    | .error f => .error f

/-- `findDepthProfileStart(image, diveIndex) -> (startIndex, length) | NotFound` (40_decoder.md rule R90). -/
def findDepthProfileStart (m : Memory) (n : Nat) : Except Fault (Option (Nat × Nat)) := do
  let e ← depthProfileEndIndex m
  if e ≥ profEnd then return none else scanSegments m e n e

/-! ## The commands -/

/-- TOTCNT (40_decoder.md rule R86). -/
def execTotcnt (s : State) : Result :=
  orFault (totalDiveCount s.img) fun n => .next (s.succeed (BitVec.ofNat 16 n) 0 false)

/-- STOCNT (40_decoder.md rule R87). -/
def execStocnt (s : State) : Result :=
  orFault (storedDiveCount s.img) fun n => .next (s.succeed (BitVec.ofNat 16 n) 0 false)

/-- LOGIDX (40_decoder.md rule R88). -/
def execLogidx (s : State) : Result :=
  match s.diveIndex with
  | none => .next (s.reject .operandError 1)
  | some n => orFault (logbookStartIndex s.img n) fun i => .next (s.succeed (zext16 (BitVec.ofNat idxW i)) 0 false)

/-- PROFEND (40_decoder.md rule R89). -/
def execProfend (s : State) : Result :=
  orFault (depthProfileEndIndex s.img) fun e => .next (s.succeed (BitVec.ofNat 16 e) 0 false)

/-- PROFFIND (40_decoder.md rule R90): NotFound is a result, not an error. -/
def execProffind (s : State) : Result :=
  match s.diveIndex with
  | none => .next (s.reject .operandError 1)
  | some n =>
    orFault (findDepthProfileStart s.img n) fun
      | some (start, len) => .next (s.succeed (zext16 (BitVec.ofNat idxW start)) (BitVec.ofNat 16 len) true)
      | none => .next (s.succeed 0 0 false)

/-- LOGVALID (40_decoder.md rule R91). -/
def execLogvalid (s : State) : Result := .next (s.succeed 0 0 (isLogbookIndexValid s.indexOperand))

/-- PROFVALID (40_decoder.md rule R92). -/
def execProfvalid (s : State) : Result := .next (s.succeed 0 0 (isDepthProfileIndexValid s.indexOperand))

end Sys2Proof.Machine
end

