-- ==== Sys2Proof/Machine/Serializer.lean ====
section
/-! DEFINITION. DiveRecordSerializer and the staging-buffer commands of 41_serializer.md. -/

namespace Sys2Proof.Machine

open Sys2Proof.Param

/-- `src(0), ..., src(11)`: the stored offset that feeds each output position (30_encoding.md rule R73). -/
def entrySource : List Nat := [0, 1, 2, 3, 4, 5, 6, 10, 9, 8, 7, 11]

/-- The image addresses of a logbook entry in output order (41_serializer.md rule R96): the sum is an integer, with no
16-bit wrap, and each byte address is reduced separately. -/
def entryAddresses (logIndex : Nat) : List Nat := entrySource.map fun j => logaddr (logIndex + j)

/-- The twelve bytes WRLOG appends (41_serializer.md rule R96). -/
def logbookEntry (m : Memory) (logIndex : Nat) : Except Fault (List Byte) := m.bytesAt (entryAddresses logIndex)

/-- The addresses that `count` steps of the read cursor visit from `p` (41_serializer.md rule R97). -/
def sampleAddresses : Nat → Nat → List Nat
  | 0, _ => []
  | count + 1, p => next p :: sampleAddresses count (next p)

/-- The bytes WRPROF appends (41_serializer.md rule R97). -/
def profileSamples (m : Memory) (start count : Nat) : Except Fault (List Byte) := m.bytesAt (sampleAddresses count start)

/-- The four bytes WRIDENT appends: serial in ascending address order, then model (41_serializer.md rule R98,
20_memory.md rule R42). -/
def deviceIdentity (m : Memory) : Except Fault (List Byte) :=
  m.bytesAt [addrSerial, addrSerial + 1, addrSerial + 2, addrModel]

/-- SBCLR (41_serializer.md rule R95). -/
def execSbclr (s : State) : Result := .next (s.clearStaging.succeed 0 0 false)

/-- WRLOG (41_serializer.md rule R96). -/
def execWrlog (s : State) : Result :=
  if s.fits logEntry then
    orFault (logbookEntry s.img s.indexOperand) fun bs =>
      .next ((s.append bs).succeed (BitVec.ofNat 16 logEntry) 0 false)
  else .next (s.reject .bufferOverflow 1)

/-- WRPROF (41_serializer.md rule R97): the operand test comes before the capacity test. -/
def execWrprof (s : State) : Result :=
  if s.indexOperand ≥ profEnd then .next (s.reject .operandError 2)
  else if s.fits s.countOperand then
    orFault (profileSamples s.img s.indexOperand s.countOperand) fun bs =>
      .next ((s.append bs).succeed (BitVec.ofNat 16 s.countOperand) 0 false)
  else .next (s.reject .bufferOverflow 1)

/-- WRIDENT (41_serializer.md rule R98). -/
def execWrident (s : State) : Result :=
  if s.fits 4 then
    orFault (deviceIdentity s.img) fun bs => .next ((s.append bs).succeed 4 0 false)
  else .next (s.reject .bufferOverflow 1)

end Sys2Proof.Machine
end

