-- ==== Sys2Proof/Machine/Transport.lean ====
section
/-! DEFINITION. ReliableTransport: the commands PKTSEND and BULKSEND, and the sequencer's steps inside a transfer
(43_transport.md; the steps are those of rule R124: emit, enter wait, poll, sleep). -/

namespace Sys2Proof.Machine

open Sys2Proof.Param

/-- The transfer in progress is PKTSEND's: `OP` tells which command is in execution (10_state.md rules R26, R28; log 17). -/
def State.sendsOnePacket (s : State) : Bool := s.op == opcode .pktsend

/-- `send:` of `SendPacket` (43_transport.md rule R108): the bytes of `FB` are sent from the first one on. -/
def State.startSending (s : State) : State := { s with tstate := .sending, txpos := 0, sleeping := none }

/-- Entry to AwaitingAck: `T0 <- nowMillis()` (43_transport.md rule R110). -/
def State.enterWait (s : State) : State := { s with tstate := .awaitingAck, t0 := s.now, txpos := 0, sleeping := none }

/-- One step of Sending (43_transport.md rule R109): the next byte of `FB` goes to `writeByte`, or the wait begins when
none is left. A transport that is not ready keeps the block waiting in `writeByte` (70_reset_and_hazards.md rule R163). -/
def State.emitStep (s : State) : State :=
  match s.fb[s.txpos]? with
  | none => s.enterWait
  | some b => if s.txReady then { s with tx := s.tx ++ [b], txpos := s.txpos + 1 } else s

/-- The completion of BULKSEND and EXPORT with its counts (43_transport.md rule R120, 10_state.md rule R15). -/
def State.bulkResults (s : State) : State := s.results (zext16 s.chcnt) (zext16 s.choff) false

/-- The loop head of BULKSEND (43_transport.md rule R120): the next chunk, or Done when no chunk remains. -/
def State.nextChunk (s : State) : State :=
  if s.choff.toNat < s.sblen then s.buildChunk.startSending
  else { s with tstate := .done }.bulkResults.complete .noError 0

/-- The start of a bulk transfer (43_transport.md rule R120), shared by BULKSEND and step 7 of EXPORT. -/
def State.beginBulk (s : State) : State := { s with retry := 0, choff := 0, chcnt := 0 }.nextChunk

/-- `0x06` received (43_transport.md rules R112, R119, R120): the counter is reset, the caller advances. -/
def State.onAck (s : State) : State :=
  if s.sendsOnePacket then { s with retry := 0, tstate := .done }.succeed 1 0 false
  else
    { s with
      retry := 0, choff := s.choff + BitVec.ofNat 13 (s.fblen - 2), chcnt := s.chcnt + 1 }.nextChunk

/-- Failed, with the sub-cause (43_transport.md rules R117, R119, R120). -/
def State.failTransfer (s : State) (sub : BitVec 4) : State :=
  let t := { s with tstate := .failed }
  (if s.sendsOnePacket then t.results 0 0 false else t.bulkResults).complete .sendError sub

/-- A NAK (43_transport.md rule R114): counted first, then compared with the budget; no resend on the tenth. -/
def State.onNak (s : State) : State :=
  let t := { s with retry := s.retry + 1 }
  if t.retry.toNat = maxRetries then t.failTransfer 2 else t.startSending

/-- The end of a poll that has not left the wait (43_transport.md rules R111, R115): the timeout test, then
`sleepMillis(10)` is called. -/
def State.timeoutOrSleep (s : State) : State :=
  if (sub32 s.now s.t0).toNat ≥ ackTimeout then s.failTransfer 1 else { s with sleeping := some s.now }

/-- The classes of response bytes (30_encoding.md rule R75). -/
inductive ResponseClass where
  /-- 0x06 -/
  | ack
  /-- 0x00 and 0xFF -/
  | noise
  /-- any other value -/
  | nak
deriving DecidableEq, Repr

/-- The class of a response byte (30_encoding.md rule R75). -/
def classify (b : Byte) : ResponseClass :=
  if b = ackByte then .ack else if b = noiseLow ∨ b = noiseHigh then .noise else .nak

/-- One poll iteration (43_transport.md rule R111): at most one byte is read, and it is acted on before the timeout is
tested. -/
def State.pollStep (s : State) : State :=
  match s.rx with
  | [] => s.timeoutOrSleep
  | b :: rest =>
    let t := { s with rx := rest }
    match classify b with
    | .ack => t.onAck
    | .noise => t.timeoutOrSleep
    | .nak => t.onNak

/-- One step of AwaitingAck: a `sleepMillis(10)` under way returns once `NOW` has advanced by at least 10
(10_state.md rules R31, R32; log 12); with none under way, a poll. -/
def State.waitStep (s : State) : State :=
  match s.sleeping with
  | some start => if (sub32 s.now start).toNat ≥ pollInterval then { s with sleeping := none } else s
  | none => s.pollStep

/-- PKTSEND (43_transport.md rule R119): nothing to send, or the transfer of `FB` begins. -/
def execPktsend (s : State) : Result :=
  let t := { s with retry := 0 }
  if s.fblen = 0 then .next ({ t with tstate := .done }.succeed 0 0 false) else .next t.startSending

/-- BULKSEND (43_transport.md rule R120): nothing to send, or the transfer of the first chunk begins. -/
def execBulksend (s : State) : Result := .next s.beginBulk

end Sys2Proof.Machine
end

