-- ==== Sys2Proof/Machine/Export.lean ====
section
/-! DEFINITION. ExportOrchestrator: ENVOPEN, ENVCLOSE, EXPORT (44_export.md). -/

namespace Sys2Proof.Machine

open Sys2Proof.Param

/-- The seven header bytes: the reserved size field, the command byte, the capture timestamp in descending address
order (44_export.md rule R125, 20_memory.md rule R43). -/
def headerBytes (m : Memory) : Except Fault (List Byte) := do
  let time ← m.bytesAt [addrTime + 3, addrTime + 2, addrTime + 1, addrTime]
  return [0x00, 0x00, exportCmd] ++ time

/-- The staged bytes with the size field patched, little-endian (44_export.md rule R126). -/
def patchSize (sb : List Byte) : List Byte := [lo8 (sb.length - 2), hi8 (sb.length - 2)] ++ sb.drop 2

/-- Steps 5 and 6 of the orchestrator: the size is patched before the checksum is computed (44_export.md rule R126). -/
def State.closeEnvelope (s : State) : State :=
  { s with sb := patchSize s.sb ++ [xor8 (patchSize s.sb)] }

/-- ENVOPEN (44_export.md rule R125). -/
def execEnvopen (s : State) : Result :=
  orFault (headerBytes s.img) fun h => .next ((s.clearStaging.append h).succeed 7 0 false)

/-- ENVCLOSE (44_export.md rule R126): the operand test comes before the capacity test. -/
def execEnvclose (s : State) : Result :=
  if s.sblen < 2 then .next (s.reject .operandError 5)
  else if s.fits 1 then
    .next (s.closeEnvelope.succeed (BitVec.ofNat 16 (s.sblen - 2)) (zext16 (xor8 (patchSize s.sb))) false)
  else .next (s.reject .bufferOverflow 1)

/-- How the staging of one dive ends. -/
inductive Staging where
  /-- the dive's record was staged -/
  | staged (s : State)
  /-- a check failed: the run ends with this error and sub-cause (60_exceptions.md rule R134) -/
  | stopped (e : ErrCode) (info : BitVec 4) (s : State)
deriving DecidableEq, Repr

/-- The loop body of EXPORT for the dive in `DIVE`: identity, logbook entry, sample count, samples, each check where
44_export.md rule R127 (step 4) puts it. -/
def State.stageDive (s : State) : Except Fault Staging := do
  let ident ← deviceIdentity s.img
  let s := s.append ident
  let logIndex ← logbookStartIndex s.img s.dive.toNat
  if isLogbookIndexValid logIndex then
    let entry ← logbookEntry s.img logIndex
    let s := s.append entry
    match ← findDepthProfileStart s.img s.dive.toNat with
    | none => return .stopped .dataError 2 s
    | some (start, len) =>
      if isDepthProfileIndexValid start then
        let s := s.append [lo8 (len - 1), hi8 (len - 1)]
        let samples ← profileSamples s.img start (len - 1)
        return .staged (s.append samples)
      else return .stopped .dataError 3 s
  else return .stopped .dataError 1 s

/-! ## The staging of EXPORT while the image changes (70_reset_and_hazards.md rule R155, U5; log 6) -/

/-- The addresses of which 20_memory.md rule R36 says that EXPORT reads them. -/
def readByExport (a : Nat) : Bool :=
  decide (a ≤ addrModel) || (decide (addrSerial ≤ a) && decide (a ≤ addrSerial + 2)) ||
    (decide (addrCursor ≤ a) && decide (a ≤ addrTime + 3))

/-- EXPORT can tell the byte `new` from the byte `old` at an address: it reads the address, and not only the discarded
bits of the high byte of the end cursor differ (20_memory.md rule R41, 93_implementation_defined.md U17). -/
def exportSees (a : Nat) (old new : Byte) : Bool :=
  readByExport a && (if a = addrProfEnd + 1 then old &&& 0x0E != new &&& 0x0E else old != new)

/-- EXPORT is staging: `BUSY = 1` with `TSTATE` Idle (log 16). -/
def State.isStaging (s : State) : Bool := s.busy && decide (s.tstate = .idle)

/-- The image port presents a byte (70_reset_and_hazards.md rule R155). Between commands, and while the packets of a
transfer are sent (20_memory.md rule R58), that is all. A change that the staging of EXPORT can see makes every byte
staged so far a free value, and those to come (`State.stageUnstable`). -/
def State.presentByte (s : State) (a : Nat) (b : Byte) : State :=
  let t := { s with img := s.img.put a b }
  if s.isStaging && exportSees a (s.img.get a) b then
    { t with sb := s.freeBytes s.sblen, imageChanged := true }.drawn s.sblen
  else t

/-- No dive is left after the one in `DIVE`. -/
def State.lastDive (s : State) : Bool := decide (s.count.toNat ≤ s.dive.toNat + 1)

/-- The loop body of EXPORT after such a change: whether a profile is found, how many samples it has (a length of at most
0x5FF with the sentinel, 40_decoder.md rule R93 item 5) and every byte copied from the image are free values; the count
field is that of the samples staged. Nothing bounds the sum of the lengths then, so the append discipline of
41_serializer.md rule R94 holds by its test: a record for which there is no room is a `BufferOverflow` (log 26). -/
def State.stageUnstable (s : State) : Staging :=
  let found := s.freeBits 1
  let count := ((s.drawn 1).freeBits 16).toNat % (profEnd - 1)
  let s := s.drawn 2
  if found = 0 then
    if s.fits 16 then .stopped .dataError 2 (s.appendFree 16) else .stopped .bufferOverflow 1 s
  else if s.fits (18 + count + if s.lastDive then 1 else 0) then
    .staged (((s.appendFree 16).append [lo8 count, hi8 count]).appendFree count)
  else .stopped .bufferOverflow 1 s

/-- One step of the staging of EXPORT (44_export.md rule R127): the dive in `DIVE`; then the next dive, or, after the
last one, steps 5 and 6 and the start of the transmission (10_state.md rule R28: `DIVE` is the loop variable; log 10). -/
def State.stageStep (s : State) : Result :=
  orFault (if s.imageChanged then .ok s.stageUnstable else s.stageDive) fun
    | .stopped e info t => .next (t.reject e info)
    | .staged t =>
      if s.lastDive then .next t.closeEnvelope.beginBulk else .next { t with dive := s.dive + 1 }

/-- EXPORT (44_export.md rule R127): steps 1 to 3; with dives to export the staging goes on in `State.stageStep`, with
`BUSY = 1`, `TSTATE` Idle and `DIVE` 0. -/
def execExport (s : State) : Result :=
  let s := { s with tstate := .idle, dive := 0, imageChanged := false }.clearStaging
  orFault (headerBytes s.img) fun h =>
    orFault (storedDiveCount s.img) fun n =>
      let s := { s with count := BitVec.ofNat 8 n }
      if n = 0 then .next ((s.append h).reject .diveCountNull 0) else .next (s.append h)

end Sys2Proof.Machine
end

