-- ==== Sys2Proof/Machine/Dispatch.lean ====
section
/-! DEFINITION. One arm per command. -/

namespace Sys2Proof.Machine

def exec (i : Instr) (s : State) : Host.Outcome State Fault Refusal :=
  match i with
  | .sbclr => Sys2Proof.Machine.execSbclr s
  | .totcnt => Sys2Proof.Machine.execTotcnt s
  | .stocnt => Sys2Proof.Machine.execStocnt s
  | .logidx => Sys2Proof.Machine.execLogidx s
  | .profend => Sys2Proof.Machine.execProfend s
  | .proffind => Sys2Proof.Machine.execProffind s
  | .logvalid => Sys2Proof.Machine.execLogvalid s
  | .profvalid => Sys2Proof.Machine.execProfvalid s
  | .wrlog => Sys2Proof.Machine.execWrlog s
  | .wrprof => Sys2Proof.Machine.execWrprof s
  | .wrident => Sys2Proof.Machine.execWrident s
  | .msgenc => Sys2Proof.Machine.execMsgenc s
  | .pktsend => Sys2Proof.Machine.execPktsend s
  | .bulksend => Sys2Proof.Machine.execBulksend s
  | .envopen => Sys2Proof.Machine.execEnvopen s
  | .envclose => Sys2Proof.Machine.execEnvclose s
  | .exportRun => Sys2Proof.Machine.execExport s

end Sys2Proof.Machine
end

