-- ==== Sys2Proof/Machine/HostPort.lean ====
section
/-! DEFINITION. The host port: register reads, and the register writes that start no command (10_state.md rules R11 to
R23, R33). -/

namespace Sys2Proof.Machine

open Sys2Proof.Param

/-- The number of a host register (10_state.md rule R11). -/
def regNumber : HostReg → BitVec 4
  | .cmd => 0x0
  | .arg0 => 0x1
  | .arg1 => 0x2
  | .status => 0x3
  | .res0 => 0x4
  | .res1 => 0x5
  | .errinfo => 0x6
  | .dive => 0x7
  | .sblen => 0x8
  | .sbptr => 0x9
  | .sbdata => 0xA
  | .fblen => 0xB
  | .fbptr => 0xC
  | .fbdata => 0xD
  | .retry => 0xE
  | .choff => 0xF

/-- The bits used of a register (10_state.md rule R11), for the registers whose value can be unspecified; the bits
above read 0. -/
def regWidth : HostReg → Nat
  | .errinfo => 4
  | .dive => 8
  | .sblen => 13
  | .sbptr => 13
  | .sbdata => 8
  | .fblen => 8
  | .fbptr => 8
  | .fbdata => 8
  | .retry => 4
  | .choff => 13
  | .cmd => 16
  | .arg0 => 16
  | .arg1 => 16
  | .status => 16
  | .res0 => 16
  | .res1 => 16

/-- The registers whose reads while `BUSY = 1` return the current value (10_state.md rule R33). -/
def readableWhileBusy : HostReg → Bool
  | .status | .retry | .choff | .dive | .cmd | .arg0 | .arg1 => true
  | .res0 | .res1 | .errinfo | .sblen | .fblen | .sbdata | .fbdata | .sbptr | .fbptr => false

/-- The byte behind `SBDATA`, where the spec gives one (10_state.md rule R19). -/
def State.sbWindow (s : State) : Option Byte := s.sb[s.sbptr.toNat]?

/-- The byte behind `FBDATA`, where the spec gives one: `FB[FBPTR mod 128]` below `FBLEN` (10_state.md rule R21). -/
def State.fbWindow (s : State) : Option Byte :=
  if s.fbptr.toNat < s.fblen then s.fb[s.fbptr.toNat % fbCap]? else none

/-- The value a register that holds one reads as (10_state.md rules R11 to R23); a window holds none. -/
def State.regValue (s : State) : HostReg → Option Half
  | .cmd => some s.cmd
  | .arg0 => some s.arg0
  | .arg1 => some s.arg1
  | .status => some s.statusWord
  | .res0 => some s.res0
  | .res1 => some s.res1
  | .errinfo => some (zext16 s.errinfo)
  | .dive => some (zext16 s.dive)
  | .sblen => some (zext16 (BitVec.ofNat 13 s.sblen))
  | .sbptr => some (zext16 s.sbptr)
  | .sbdata => s.sbWindow.map zext16
  | .fblen => some (zext16 (BitVec.ofNat 8 s.fblen))
  | .fbptr => some (zext16 s.fbptr)
  | .fbdata => s.fbWindow.map zext16
  | .retry => some (zext16 s.retry)
  | .choff => some (zext16 s.choff)

/-- The value of a read, where the spec gives one (10_state.md rules R19, R21, R33). -/
def State.definedRead (s : State) (r : HostReg) : Option Half :=
  if s.busy && !readableWhileBusy r then none else s.regValue r

/-- The side effect of a read: the two data windows move their pointers, not while `BUSY = 1`
(10_state.md rules R19, R21, R33). -/
def State.movePointer (s : State) (r : HostReg) : State :=
  if s.busy then s
  else
    match r with
    | .sbdata => { s with sbptr := s.sbptr + 1 }
    | .fbdata => { s with fbptr := s.fbptr + 1 }
    | _ => s

/-- `HostRead(r)` (10_state.md rule R11): the value goes to the host; where the spec gives none it is a free value of
the register's width (93_implementation_defined.md U3, U4; log 1, log 13). -/
def State.hostRead (s : State) (r : HostReg) : State :=
  match s.definedRead r with
  | some v => { s.movePointer r with hostOut := s.hostOut ++ [v] }
  | none => { (s.movePointer r).drawn 1 with hostOut := s.hostOut ++ [s.freeBits (regWidth r)] }

/-- `HostWrite(SBDATA, v)` (10_state.md rule R19, 41_serializer.md rule R99): dropped on a full buffer. -/
def State.writeSbdata (s : State) (v : Half) : State := if s.fits 1 then s.append [v.extractLsb' 0 8] else s

/-- `HostWrite(r, v)` for every register but `CMD`, while `BUSY = 0` (10_state.md rules R11, R13, R19, R21). -/
def State.writeReg (s : State) (r : HostReg) (v : Half) : State :=
  match r with
  | .arg0 => { s with arg0 := v }
  | .arg1 => { s with arg1 := v }
  | .sbptr => { s with sbptr := v.extractLsb' 0 13 }
  | .sbdata => s.writeSbdata v
  | .fbptr => { s with fbptr := v.extractLsb' 0 8 }
  | _ => s

end Sys2Proof.Machine
end

