-- ==== Sys2Proof/Machine/Sequencer.lean ====
section
/-! DEFINITION. The sequencer's next step inside a command (10_state.md rule R28, 43_transport.md rule R124). -/

namespace Sys2Proof.Machine

/-- One step of the sequencer. With `BUSY = 0` it does nothing (70_reset_and_hazards.md rule R152). With `BUSY = 1`,
`TSTATE` tells where the command in execution stands: Idle is the staging of EXPORT, Sending and AwaitingAck are the
transfer; a command completes in the step that enters Done or Failed (log 16). -/
def State.sequencerStep (s : State) : Result :=
  if s.busy then
    match s.tstate with
    | .idle => s.stageStep
    | .sending => .next s.emitStep
    | .awaitingAck => .next s.waitStep
    | .done => .next s
    | .failed => .next s
  else .next s

end Sys2Proof.Machine
end

