-- ==== Sys2Proof/Machine/Command.lean ====
section
/-! DEFINITION. Writes of the host port, `CMD` among them, and the environment's other actions. -/

namespace Sys2Proof.Machine

/-- `HostWrite(CMD, v)` while `BUSY = 0` (10_state.md rule R12): the command is accepted, decoded and executed; an
illegal word completes at once (30_encoding.md rules R67, R68). -/
def issueCommand (s : State) (v : Half) : Result :=
  match decode v with
  | .ok i => exec i (s.accept v)
  | .error w => .next ((s.accept v).rejectWord w)

/-- `HostWrite(r, v)` (10_state.md rules R11, R12); ignored while `BUSY = 1` (rule R33). -/
def hostWrite (s : State) (r : HostReg) (v : Half) : Result :=
  if s.busy then .next s
  else
    match r with
    | .cmd => issueCommand s v
    | _ => .next (s.writeReg r v)

/-- One action of the environment on the state from which it has been taken (log 8). -/
def act (s : State) : Event → Result
  | .hostWrite r v => hostWrite s r v
  | .hostRead r => .next (s.hostRead r)
  | .rst => .next s.resetBlock
  | .arrive b => .next { s with rx := s.rx ++ [b] }
  | .advance d => .next { s with now := s.now + d }
  | .txReady ready => .next { s with txReady := ready }
  | .imageByte a b => .next (s.presentByte a.toNat b)
  | .turn => s.sequencerStep

/-- One step of the whole machine: the environment's next action, or the sequencer's turn when none is left (log 8). -/
def stepOnce (s : State) : Result :=
  match s.env with
  | [] => s.sequencerStep
  | e :: rest => act { s with env := rest } e

end Sys2Proof.Machine
end

