-- ==== Sys2Proof/Machine/Step.lean ====
section
/-! DEFINITION. The step, and where it finds its next command. -/

namespace Sys2Proof.Machine

/-- One step of the machine (log 8). -/
def step (s : State) : Host.Outcome State Fault Refusal := stepOnce s

/-- The machine about to accept the command word `w`: the host's next action is `HostWrite(CMD, w)`, and no command is
in execution, so that the write is not lost (10_state.md rules R12, R33; log 9). -/
def State.withFetchWord (s : State) (_nbits w : Nat) : State :=
  { s with busy := false, env := .hostWrite .cmd (BitVec.ofNat 16 w) :: s.env }

end Sys2Proof.Machine
end

