-- ==== Sys2Proof/Machine/HostProgram.lean ====
section
/-! DEFINITION. Host programs as lists of environment actions (30_encoding.md rules R78, R79). -/

namespace Sys2Proof.Machine

/-- A command line: the operands that are given, then the command word (30_encoding.md rule R78). The wait for
`STATUS[0] = 0` takes no action of its own: `turn` actions stand for the time that passes (log 24). -/
def commandLine (i : Instr) (a0 a1 : Option Half) : List Event :=
  (a0.map fun v => Event.hostWrite .arg0 v).toList ++ (a1.map fun v => Event.hostWrite .arg1 v).toList ++
    [.hostWrite .cmd (encode i)]

/-- `PUT b0 b1 ...` -/
def putLine (bs : List Byte) : List Event := bs.map fun b => .hostWrite .sbdata (zext16 b)

/-- `GET n` -/
def getLine (n : Nat) : List Event := List.replicate n (.hostRead .sbdata)

/-- `GETF n` -/
def getfLine (n : Nat) : List Event := List.replicate n (.hostRead .fbdata)

/-- `SET REG, v` -/
def setLine (r : HostReg) (v : Half) : List Event := [.hostWrite r v]

/-- `PEER b0 b1 ...`: the bytes the transport delivers. -/
def peerLine (bs : List Byte) : List Event := bs.map fun b => .arrive b

/-- The host's next actions are those of a program. -/
def State.withProgram (s : State) (p : List Event) : State := { s with env := p ++ s.env }

end Sys2Proof.Machine
end

