-- ==== Sys2Proof/Safety.lean ====
section
/-! DEFINITION. The terms the claims are stated in: closed forms of the spec's rules, written apart from the machine's
functions, and the invariant of the machine. -/

namespace Sys2Proof.Safety

open Sys2Proof.Machine

/-! ## Completion -/

/-- What a completed command leaves: results, error, `BUSY` 0, `DONE` 1 (60_exceptions.md rule R138). -/
def finished (s : State) (e : ErrCode) (info : BitVec 4) (r0 r1 : Half) (f : Bool) : State :=
  { s with err := e, errinfo := info, res0 := r0, res1 := r1, flag := f, busy := false, done := true }

/-- Which command can end with which error and sub-cause (60_exceptions.md rule R137). -/
def allowedEnd (i : Instr) (e : ErrCode) (info : BitVec 4) : Bool :=
  match e with
  | .noError => info == 0
  | .diveCountNull => i == .exportRun && info == 0
  | .dataError => i == .exportRun && (info == 1 || info == 2 || info == 3)
  | .sendError => (i == .pktsend || i == .bulksend || i == .exportRun) && (info == 1 || info == 2)
  | .illegalCommand => false
  | .operandError =>
    ((i == .logidx || i == .proffind) && info == 1) || (i == .wrprof && info == 2) ||
      (i == .msgenc && (info == 3 || info == 4)) || (i == .envclose && info == 5)
  | .bufferOverflow => (i == .wrlog || i == .wrprof || i == .wrident || i == .envclose) && info == 1

/-- The end of an accepted command word: a command's (rule R137), or that of an illegal word (rule R136). -/
def allowedWordEnd (v : Half) (e : ErrCode) (info : BitVec 4) : Bool :=
  match decode v with
  | .ok i => allowedEnd i e info
  | .error .undefinedOpcode => e == .illegalCommand && info == 1
  | .error .upperByte => e == .illegalCommand && info == 2

/-! ## The image -/

/-- The end cursor as a slice of bits: `IMG[0x7F7][3:1] || IMG[0x7F6]` (20_memory.md rule R41). -/
def endCursor (m : Memory) : Nat := (m.get 0x7F7).toNat / 2 % 8 * 256 + (m.get 0x7F6).toNat

/-- The ring index `d` bytes behind the end cursor (20_memory.md rule R47). -/
def behind (m : Memory) (d : Nat) : Nat := (endCursor m + 0x600 - d) % 0x600

/-- How far behind the end cursor each sentinel lies, nearest first; the byte at the cursor itself is not examined
(40_decoder.md rules R90, R93). With a cursor outside the ring there is none. -/
def sentinelDistances (m : Memory) : List Nat :=
  if endCursor m < 0x600 then (List.range' 1 0x5FF).filter fun d => m.get (behind m d) == 0xFF else []

/-- The distance at which the segment of dive `n` ends: that of the next newer sentinel, or 0. -/
def segmentEnd (m : Memory) (n : Nat) : Nat := if n = 0 then 0 else (sentinelDistances m).getD (n - 1) 0

/-- Start index and length, sentinel included, of the depth-profile segment of dive `n` (40_decoder.md rule R93 items 5
to 7): the sentinel number `n`, counted backwards from the end cursor. -/
def profileSegment (m : Memory) (n : Nat) : Option (Nat × Nat) :=
  ((sentinelDistances m)[n]?).map fun d => (behind m d, d - segmentEnd m n)

/-- The logbook start index of dive `n` by slots (40_decoder.md rule R93 items 1 to 3): one slot back per dive, modulo
37; 36 is −1 modulo 37. -/
def logbookSlot (m : Memory) (n : Nat) : Nat := ((m.get 0x7F4).toNat + 36 + 36 * n) % 37

/-- The address reduction of 20_memory.md rule R45. -/
def reduced (a : Nat) : Nat := if 0x7BC ≤ a then (a - 0x1BC) % 0x7BC else a % 0x7BC

/-- Serial, then model (30_encoding.md rule R72). -/
def identityBytes (m : Memory) : List Byte := [m.get 0x7ED, m.get 0x7EE, m.get 0x7EF, m.get 0x7BC]

/-- The twelve bytes of a logbook entry in output order (30_encoding.md rule R73, 41_serializer.md rule R96). -/
def entryBytes (m : Memory) (i : Nat) : List Byte :=
  [m.get (reduced i), m.get (reduced (i + 1)), m.get (reduced (i + 2)), m.get (reduced (i + 3)),
   m.get (reduced (i + 4)), m.get (reduced (i + 5)), m.get (reduced (i + 6)), m.get (reduced (i + 10)),
   m.get (reduced (i + 9)), m.get (reduced (i + 8)), m.get (reduced (i + 7)), m.get (reduced (i + 11))]

/-- The `count` bytes after ring index `i`, with wrap (41_serializer.md rule R97). -/
def sampleBytes (m : Memory) (i count : Nat) : List Byte :=
  (List.range count).map fun k => m.get ((i + 1 + k) % 0x600)

/-- A 16-bit field, low byte first (30_encoding.md rule R74). -/
def littleEndian (v : Nat) : List Byte := [BitVec.ofNat 8 v, BitVec.ofNat 8 (v / 256)]

/-- The bytes of dive `n` staged before its depth profile is looked up (44_export.md rule R128). -/
def recordHead (m : Memory) (n : Nat) : List Byte := identityBytes m ++ entryBytes m (0x600 + 12 * logbookSlot m n)

/-- The dive record of dive `n`, empty if its segment does not exist (30_encoding.md rule R72). -/
def diveRecord (m : Memory) (n : Nat) : List Byte :=
  match profileSegment m n with
  | some (start, len) => recordHead m n ++ littleEndian (len - 1) ++ sampleBytes m start (len - 1)
  | none => []

/-- The records of dives 0 to `n - 1`. -/
def diveRecords (m : Memory) (n : Nat) : List Byte := (List.range n).flatMap (diveRecord m)

/-- The envelope's header with the size field still reserved (44_export.md rule R125). -/
def openHeader (m : Memory) : List Byte :=
  [0x00, 0x00, 0x55, m.get 0x7FB, m.get 0x7FA, m.get 0x7F9, m.get 0x7F8]

/-- The number of stored dives (20_memory.md rule R39). -/
def storedDives (m : Memory) : Nat := (m.get 0x7F5).toNat

/-- Every stored dive has a depth profile. -/
def allProfilesFound (m : Memory) : Prop := storedDives m ≤ (sentinelDistances m).length

/-! ## Checksums and packets -/

/-- The exclusive OR of all bytes (42_codec.md rule R100). -/
def xorAll (l : List Byte) : Byte := l.foldl (fun a b => a ^^^ b) 0

/-- A staged buffer closed into an envelope: the size patched, little-endian, then the checksum over it all
(30_encoding.md rule R71, 44_export.md rule R126). -/
def closed (sb : List Byte) : List Byte :=
  littleEndian (sb.length - 2) ++ sb.drop 2 ++ [xorAll (littleEndian (sb.length - 2) ++ sb.drop 2)]

/-- The export envelope of an image (30_encoding.md rule R71). -/
def envelope (m : Memory) : List Byte := closed (openHeader m ++ diveRecords m (storedDives m))

/-- The outer packet of a bulk chunk (30_encoding.md rule R69). -/
def bulkPacket (d : List Byte) : List Byte :=
  BitVec.ofNat 8 d.length :: d ++ [BitVec.ofNat 8 d.length ^^^ xorAll d]

/-- The outer packet of a short message (30_encoding.md rule R70, 42_codec.md rule R103). -/
def shortMessage (d : List Byte) : List Byte :=
  BitVec.ofNat 8 (d.length + 3) :: BitVec.ofNat 8 d.length :: 0x00 :: d ++
    [BitVec.ofNat 8 d.length ^^^ xorAll d,
     BitVec.ofNat 8 (d.length + 3) ^^^ (BitVec.ofNat 8 d.length ^^^ xorAll d)]

/-- Chunk number `k` of a buffer (42_codec.md rule R104). -/
def chunkOf (b : List Byte) (k : Nat) : List Byte := (b.drop (126 * k)).take 126

/-- `ceil(L / 126)` (42_codec.md rule R104). -/
def chunkCount (b : List Byte) : Nat := (b.length + 125) / 126

/-- What a transfer of a buffer without retries puts on the wire (42_codec.md rule R105). -/
def bulkStream (b : List Byte) : List Byte := (List.range (chunkCount b)).flatMap fun k => bulkPacket (chunkOf b k)

/-- A response byte of the NAK class (30_encoding.md rule R75). -/
def IsNak (b : Byte) : Prop := b ≠ 0x06 ∧ b ≠ 0x00 ∧ b ≠ 0xFF

/-! ## The staging of EXPORT -/

/-- The state after a dive of EXPORT whose record has been staged: the next dive, or, after the last one, the closed
envelope with the transmission of its first chunk begun (44_export.md rule R127). -/
def afterDive (s : State) (record : List Byte) : State :=
  if s.dive.toNat + 1 < s.count.toNat then { s with sb := s.sb ++ record, dive := s.dive + 1 }
  else
    { s with
      sb := closed (s.sb ++ record), retry := 0, choff := 0, chcnt := 0,
      fb := bulkPacket (chunkOf (closed (s.sb ++ record)) 0), tstate := .sending, txpos := 0, sleeping := none }

/-- EXPORT can tell two bytes at an address apart: 20_memory.md rule R36 lists it as a reader of the address, and of the
high byte of the end cursor only bits 3:1 count (rule R41). -/
def exportTells (a : Nat) (old new : Byte) : Prop :=
  (a ≤ 0x7BC ∨ (0x7ED ≤ a ∧ a ≤ 0x7EF) ∨ (0x7F4 ≤ a ∧ a ≤ 0x7FB)) ∧
    if a = 0x7F7 then old.extractLsb' 1 3 ≠ new.extractLsb' 1 3 else old ≠ new

/-! ## Host programs -/

/-- The lines of the step-by-step export for dive `n` (44_export.md rule R129), with the operands that LOGIDX and
PROFFIND report for it. -/
def diveProgram (m : Memory) (n : Nat) : List Event :=
  commandLine .wrident none none ++
  commandLine .logidx (some (BitVec.ofNat 16 n)) none ++
  commandLine .logvalid (some (BitVec.ofNat 16 (0x600 + 12 * logbookSlot m n))) none ++
  commandLine .wrlog (some (BitVec.ofNat 16 (0x600 + 12 * logbookSlot m n))) none ++
  commandLine .proffind (some (BitVec.ofNat 16 n)) none ++
  match profileSegment m n with
  | some (start, len) =>
    commandLine .profvalid (some (BitVec.ofNat 16 start)) none ++ putLine (littleEndian (len - 1)) ++
      commandLine .wrprof (some (BitVec.ofNat 16 start)) (some (BitVec.ofNat 16 (len - 1)))
  | none => []

/-- The step-by-step export up to ENVCLOSE (44_export.md rule R129). -/
def exportProgram (m : Memory) : List Event :=
  commandLine .envopen none none ++ commandLine .stocnt none none ++
    (List.range (storedDives m)).flatMap (diveProgram m) ++ commandLine .envclose none none

/-- The silence of a peer while time passes: for each delay, the time base advances by it, a `sleepMillis` returns and
the receive side is polled. -/
def silence (ds : List Nat) : List Event := ds.flatMap fun d => [.advance (BitVec.ofNat 32 d), .turn, .turn]

/-! ## The invariant -/

/-- What holds of the machine at reset and after every step, whatever the environment does. -/
structure Inv (s : State) : Prop where
  /-- the image keeps its canonical form -/
  image : s.img.wf = true
  /-- `SBLEN ≤ SB_CAP` (10_state.md rule R18) -/
  sbCap : s.sb.length ≤ 6144
  /-- `FB` is empty or a packet (10_state.md rule R21) -/
  fbPacket : s.fb = [] ∨ (∃ d : List Byte, 1 ≤ d.length ∧ d.length ≤ 126 ∧ s.fb = bulkPacket d) ∨
    (∃ d : List Byte, 1 ≤ d.length ∧ d.length ≤ 123 ∧ 0x00 ∉ d ∧ s.fb = shortMessage d)
  /-- `OP` is the low byte of `CMD` (10_state.md rule R12) -/
  opLatch : s.op = s.cmd.extractLsb' 0 8
  /-- `0 ≤ RETRY ≤ 10` always (43_transport.md rule R118) -/
  retryBudget : s.retry.toNat ≤ 10
  /-- `CHOFF` and `CHCNT` stay in the ranges of 10_state.md rules R23 and R26 -/
  offsets : s.choff.toNat ≤ 6144 ∧ s.chcnt.toNat ≤ 49
  /-- while `BUSY = 1`, `DONE`, `FLAG` and `ERR` read 0 (10_state.md rules R12, R14) -/
  busyClear : s.busy = true → s.done = false ∧ s.flag = false ∧ s.err = .noError
  /-- while `BUSY = 1`, a transport command or EXPORT is in execution; in the state Idle it is EXPORT -/
  busyCommand : s.busy = true →
    (s.tstate = .idle ∧ s.cmd = 0x42) ∨
      ((s.tstate = .sending ∨ s.tstate = .awaitingAck) ∧ (s.cmd = 0x31 ∨ s.cmd = 0x32 ∨ s.cmd = 0x42))
  /-- with `BUSY = 0` no transfer is under way -/
  idleState : s.busy = false → s.tstate ≠ .sending ∧ s.tstate ≠ .awaitingAck
  /-- `ERR` and `ERRINFO` are those of an end the last command can have (60_exceptions.md rules R136, R137), or an
  EXPORT under which the image has changed had no room for a record (log 26) -/
  lastEnd : s.busy = false → s.done = true → allowedWordEnd s.cmd s.err s.errinfo = true ∨
    (s.cmd = 0x42 ∧ s.imageChanged = true ∧ s.err = .bufferOverflow ∧ s.errinfo = 1)
  /-- before the first completion `ERR` and `ERRINFO` are 0 (60_exceptions.md rule R144) -/
  freshEnd : s.busy = false → s.done = false → s.err = .noError ∧ s.errinfo = 0
  /-- `FLAG` is set only by PROFFIND, LOGVALID, PROFVALID (10_state.md rule R14) -/
  flagSource : s.flag = true → s.cmd = 0x14 ∨ s.cmd = 0x15 ∨ s.cmd = 0x16
  /-- on an error other than SendError the results are 0 (10_state.md rule R15) -/
  errorResults : s.busy = false → s.err ≠ .noError → s.err ≠ .sendError → s.res0 = 0 ∧ s.res1 = 0 ∧ s.flag = false
  /-- the position in `FB` means something only while Sending -/
  position : s.txpos ≤ s.fb.length ∧ (s.tstate ≠ .sending → s.txpos = 0)
  /-- a delay is under way only in AwaitingAck -/
  delay : s.sleeping ≠ none → s.tstate = .awaitingAck
  /-- during the staging of EXPORT: how many bytes are staged, while the image is stable (44_export.md rules R127, R130) -/
  staging : s.busy = true → s.tstate = .idle → s.dive.toNat < s.count.toNat ∧
    (s.imageChanged = false →
      s.count.toNat = storedDives s.img ∧ s.dive.toNat ≤ (sentinelDistances s.img).length ∧
        s.sb.length = 7 + 17 * s.dive.toNat + segmentEnd s.img s.dive.toNat)
  /-- during a transfer the retry budget is not exhausted and `FB` holds a packet (43_transport.md rules R108, R114) -/
  transfer : s.busy = true → s.tstate ≠ .idle → s.fb ≠ [] ∧ s.retry.toNat < 10
  /-- during a bulk transfer `FB` holds the chunk number `CHCNT` of `SB`, at `CHOFF` (10_state.md rules R23, R25) -/
  chunk : s.busy = true → s.tstate ≠ .idle → s.cmd ≠ 0x31 →
    s.choff.toNat < s.sb.length ∧ s.choff.toNat = 126 * s.chcnt.toNat ∧
      s.fb = bulkPacket (chunkOf s.sb s.chcnt.toNat)

end Sys2Proof.Safety
end

