-- ==== Sys2Proof/Certificates/Slice0/Obligations.lean ====
section
/-! DEFINITION. The statements for the provers. A command's statement gives the whole next state, so that it is also
its frame: every register, buffer, stream and image byte that it does not name is unchanged. -/

open Sys2Proof Sys2Proof.Machine Sys2Proof.Safety

/-! ## Encoding, and how a command comes to run -/

/-- The opcode map of 30_encoding.md rule R65, word by word, and three illegal words of 95_test_vectors.md P4. -/
def Obligations.OpcodeMapIsTheTable : Prop :=
  (∀ p ∈ ([(0x0001, .sbclr), (0x0010, .totcnt), (0x0011, .stocnt), (0x0012, .logidx), (0x0013, .profend),
      (0x0014, .proffind), (0x0015, .logvalid), (0x0016, .profvalid), (0x0020, .wrlog), (0x0021, .wrprof),
      (0x0022, .wrident), (0x0030, .msgenc), (0x0031, .pktsend), (0x0032, .bulksend), (0x0040, .envopen),
      (0x0041, .envclose), (0x0042, .exportRun)] : List (Half × Instr)),
    decode p.1 = .ok p.2 ∧ encode p.2 = p.1) ∧
  decode 0x0000 = .error .undefinedOpcode ∧ decode 0x0043 = .error .undefinedOpcode ∧
  decode 0x0112 = .error .upperByte

/-- Decoding and encoding agree on every well-formed command, and a word that decodes to a command is its one word
(30_encoding.md rules R63, R65). -/
def Obligations.DecodeAndEncodeAgree : Prop :=
  (∀ i : Instr, i.wf = true → decode (encode i) = .ok i) ∧
  (∀ (v : Half) (i : Instr), decode v = .ok i → encode i = v ∧ wordWf v = true)

/-- Every word that is no command's is illegal for the reason that is tested first (30_encoding.md rules R67, R68). -/
def Obligations.IllegalWordsAreClassified : Prop :=
  ∀ v : Half,
    (decode v = .error .upperByte ↔ v.extractLsb' 8 8 ≠ 0) ∧
    (decode v = .error .undefinedOpcode ↔ v.extractLsb' 8 8 = 0 ∧ ∀ i : Instr, opcode i ≠ v.extractLsb' 0 8)

/-- An illegal command word is accepted and completes at once with IllegalCommand; nothing but CMD, OP, STATUS and the
result registers changes (30_encoding.md rules R67, R68; 10_state.md rule R12; 60_exceptions.md rule R136). That a word
with an upper byte is latched too, and that it all is one step, is the model's reading (log 22); the action list is the
model's (log 8). -/
def Obligations.IllegalCommandCompletesAtOnce : Prop :=
  ∀ (s : State) (v : Half) (rest : List Event), s.busy = false → s.env = .hostWrite .cmd v :: rest →
    (v.extractLsb' 8 8 = 0 → (∀ i : Instr, opcode i ≠ v.extractLsb' 0 8) →
      step s = .next (finished { s with env := rest, cmd := v, op := v.extractLsb' 0 8 } .illegalCommand 1 0 0 false)) ∧
    (v.extractLsb' 8 8 ≠ 0 →
      step s = .next (finished { s with env := rest, cmd := v, op := v.extractLsb' 0 8 } .illegalCommand 2 0 0 false))

/-- A step runs the decoded command: a write of CMD while BUSY = 0 is a step that is exec of the command, on the state
in which the command has been accepted (10_state.md rule R12). The order of environment actions is the model's (log 8). -/
def Obligations.StepRunsTheDecodedCommand : Prop :=
  ∀ (s : State) (v : Half) (rest : List Event) (i : Instr), s.busy = false → s.env = .hostWrite .cmd v :: rest →
    decode v = .ok i →
    step s = exec i { s with env := rest, cmd := v, op := v.extractLsb' 0 8, busy := true, done := false,
                             err := .noError, flag := false }

/-! ## RingBufferLogDecoder -/

/-- TOTCNT (40_decoder.md rule R86): the byte at 0x7F2 is the more significant. -/
def Obligations.TotcntReadsTheTotalCount : Prop :=
  decode 0x0010 = .ok .totcnt ∧ ∀ s : State,
    exec .totcnt s = .next (finished s .noError 0 (s.img.get 0x7F2 ++ s.img.get 0x7F3) 0 false)

/-- STOCNT (40_decoder.md rule R87). -/
def Obligations.StocntReadsTheStoredCount : Prop :=
  decode 0x0011 = .ok .stocnt ∧ ∀ s : State,
    exec .stocnt s = .next (finished s .noError 0 ((0 : Byte) ++ s.img.get 0x7F5) 0 false)

/-- LOGIDX (40_decoder.md rule R88), with the floored remainder of 00_scope.md rule R8. -/
def Obligations.LogidxComputesTheStartIndex : Prop :=
  decode 0x0012 = .ok .logidx ∧ ∀ s : State,
    (s.arg0.extractLsb' 8 8 ≠ 0 → exec .logidx s = .next (finished s .operandError 1 0 0 false)) ∧
    (s.arg0.extractLsb' 8 8 = 0 →
      exec .logidx s = .next (finished s .noError 0
        (BitVec.ofInt 16
          ((((((s.img.get 0x7F4).toNat + 36) % 37 * 12 : Nat) : Int) - 12 * (s.arg0.extractLsb' 0 8).toNat) % 444 + 0x600))
        0 false))

/-- LOGIDX walks the 37 slots backwards, one per dive, with period 37 (40_decoder.md rule R93 items 1 to 3). -/
def Obligations.LogidxWalksTheSlots : Prop :=
  ∀ (s : State) (n : Nat), n ≤ 255 →
    exec .logidx { s with arg0 := BitVec.ofNat 16 n } =
      .next (finished { s with arg0 := BitVec.ofNat 16 n } .noError 0
        (BitVec.ofNat 16 (0x600 + 12 * logbookSlot s.img n)) 0 false) ∧
    logbookSlot s.img n ≤ 36 ∧ logbookSlot s.img (n + 37) = logbookSlot s.img n ∧
    logbookSlot s.img n = (logbookSlot s.img (n + 1) + 1) % 37

/-- PROFEND (40_decoder.md rule R89): the formula, and that it is the slice of bits of
20_memory.md rule R41, an equivalence that the spec marks as derived. -/
def Obligations.ProfendReadsTheEndCursor : Prop :=
  decode 0x0013 = .ok .profend ∧ ∀ s : State,
    exec .profend s = .next (finished s .noError 0
      (BitVec.ofNat 16 (((s.img.get 0x7F6).toNat + ((s.img.get 0x7F7).toNat >>> 1) * 256) &&& 0x7FF)) 0 false) ∧
    BitVec.ofNat 16 (((s.img.get 0x7F6).toNat + ((s.img.get 0x7F7).toNat >>> 1) * 256) &&& 0x7FF) =
      (0 : BitVec 5) ++ (s.img.get 0x7F7).extractLsb' 1 3 ++ s.img.get 0x7F6

/-- PROFFIND (40_decoder.md rules R90, R93): dive N is the sentinel number N counted backwards from the end cursor, the
byte at the cursor left out; its length reaches to the next newer sentinel, or to the cursor. -/
def Obligations.ProffindFindsTheSentinelOfTheDive : Prop :=
  ∀ s : State,
    (s.arg0.extractLsb' 8 8 ≠ 0 → exec .proffind s = .next (finished s .operandError 1 0 0 false)) ∧
    (s.arg0.extractLsb' 8 8 = 0 →
      exec .proffind s =
        match profileSegment s.img (s.arg0.extractLsb' 0 8).toNat with
        | some (start, len) => .next (finished s .noError 0 (BitVec.ofNat 16 start) (BitVec.ofNat 16 len) true)
        | none => .next (finished s .noError 0 0 0 false))

/-- What a found segment is (40_decoder.md rule R93 items 5 to 7). -/
def Obligations.FoundSegmentsAreDelimitedBySentinels : Prop :=
  ∀ (s t : State) (n : Nat), n ≤ 255 → exec .proffind { s with arg0 := BitVec.ofNat 16 n } = .next t → t.flag = true →
    t.res0.toNat < 0x600 ∧ 1 ≤ t.res1.toNat ∧ t.res1.toNat ≤ 0x5FF ∧ s.img.get t.res0.toNat = 0xFF ∧
    (∀ k, k + 1 < t.res1.toNat → s.img.get ((t.res0.toNat + 1 + k) % 0x600) ≠ 0xFF) ∧
    (n = 0 → (t.res0.toNat + t.res1.toNat) % 0x600 = endCursor s.img) ∧
    (∀ n', n' + 1 = n →
      ∃ u, exec .proffind { s with arg0 := BitVec.ofNat 16 n' } = .next u ∧ u.flag = true ∧
        (t.res0.toNat + t.res1.toNat) % 0x600 = u.res0.toNat)

/-- LOGVALID and PROFVALID (40_decoder.md rules R91, R92). -/
def Obligations.ValidityCommandsCheckTheRanges : Prop :=
  decode 0x0015 = .ok .logvalid ∧ decode 0x0016 = .ok .profvalid ∧ ∀ s : State,
    exec .logvalid s = .next (finished s .noError 0 0 0 (decide (0x600 ≤ s.arg0.toNat ∧ s.arg0.toNat < 0x7BC))) ∧
    exec .profvalid s = .next (finished s .noError 0 0 0 (decide (s.arg0.toNat < 0x600)))

/-- The seven decoder commands are functions of the image and ARG0, write the results and the status only, and fail
only with OperandError, on a malformed dive index operand (40_decoder.md rule R85). -/
def Obligations.DecoderCommandsArePure : Prop :=
  ∀ i ∈ [Instr.totcnt, .stocnt, .logidx, .profend, .proffind, .logvalid, .profvalid], ∀ s : State,
    ∃ (e : ErrCode) (info : BitVec 4) (r0 r1 : Half) (f : Bool), (e = .noError ∨ e = .operandError) ∧
      (e = .operandError → s.arg0.extractLsb' 8 8 ≠ 0 ∧ (i = .logidx ∨ i = .proffind)) ∧
      ∀ s' : State, s'.img = s.img → s'.arg0 = s.arg0 → exec i s' = .next (finished s' e info r0 r1 f)

/-! ## DiveRecordSerializer -/

/-- SBCLR (41_serializer.md rule R95). -/
def Obligations.SbclrStartsANewBuffer : Prop :=
  decode 0x0001 = .ok .sbclr ∧ ∀ s : State,
    exec .sbclr s = .next (finished { s with sb := [], sbptr := 0 } .noError 0 0 0 false)

/-- WRLOG (41_serializer.md rule R96): the twelve bytes in the order of 30_encoding.md rule R73, each address reduced by
20_memory.md rule R45; refused whole where they do not fit. -/
def Obligations.WrlogAppendsTheEntry : Prop :=
  decode 0x0020 = .ok .wrlog ∧ ∀ s : State, exec .wrlog s =
    if 6144 < s.sb.length + 12 then .next (finished s .bufferOverflow 1 0 0 false)
    else .next (finished { s with sb := s.sb ++ entryBytes s.img s.arg0.toNat } .noError 0 12 0 false)

/-- WRPROF (41_serializer.md rule R97): the operand test, the capacity test, then the bytes after the start index, with
wrap from 0x5FF to 0x000. -/
def Obligations.WrprofAppendsTheSamples : Prop :=
  decode 0x0021 = .ok .wrprof ∧ ∀ s : State, exec .wrprof s =
    if 0x600 ≤ s.arg0.toNat then .next (finished s .operandError 2 0 0 false)
    else if 6144 < s.sb.length + s.arg1.toNat then .next (finished s .bufferOverflow 1 0 0 false)
    else .next (finished { s with sb := s.sb ++ sampleBytes s.img s.arg0.toNat s.arg1.toNat } .noError 0 s.arg1 0 false)

/-- WRIDENT (41_serializer.md rule R98). -/
def Obligations.WridentAppendsTheIdentity : Prop :=
  decode 0x0022 = .ok .wrident ∧ ∀ s : State, exec .wrident s =
    if 6144 < s.sb.length + 4 then .next (finished s .bufferOverflow 1 0 0 false)
    else .next (finished
      { s with sb := s.sb ++ [s.img.get 0x7ED, s.img.get 0x7EE, s.img.get 0x7EF, s.img.get 0x7BC] } .noError 0 4 0 false)

/-- The append discipline (41_serializer.md rule R94): all of a command's bytes or none, never below SBLEN, never past
SB_CAP, and SBPTR does not move. -/
def Obligations.SerializersAppendAllOrNothing : Prop :=
  ∀ i ∈ [Instr.wrlog, .wrprof, .wrident], ∀ s t : State, exec i s = .next t →
    ∃ bs : List Byte, t.sb = s.sb ++ bs ∧ t.sbptr = s.sbptr ∧
      (t.err = .noError → bs.length = t.res0.toNat ∧ t.sb.length ≤ 6144) ∧ (t.err ≠ .noError → bs = [])

/-! ## PacketCodec -/

/-- MSGENC (42_codec.md rules R102, R103): the empty text, the length test, the zero-byte test, the frame. -/
def Obligations.MsgencBuildsTheFrame : Prop :=
  decode 0x0030 = .ok .msgenc ∧ ∀ s : State, exec .msgenc s =
    if s.sb = [] then .next (finished { s with fb := [], fbptr := 0 } .noError 0 0 0 false)
    else if 123 < s.sb.length then .next (finished s .operandError 3 0 0 false)
    else if 0x00 ∈ s.sb then .next (finished s .operandError 4 0 0 false)
    else .next (finished { s with fb := shortMessage s.sb, fbptr := 0 } .noError 0
      (BitVec.ofNat 16 (s.sb.length + 5)) 0 false)

/-- Checksum closure (42_codec.md rule R101): a bulk chunk, the inner packet of a short message and the envelope XOR to
0; a whole short-message frame XORs to its inner checksum. The spec marks the rule as its own inference. -/
def Obligations.ChecksumsCloseTheirUnits : Prop :=
  (∀ s : State, xorAll s.buildChunk.fb = 0) ∧
  (∀ s t : State, exec .msgenc s = .next t → t.err = .noError → s.sb ≠ [] →
    xorAll ((t.fb.drop 1).take (s.sb.length + 3)) = 0 ∧ t.fb[s.sb.length + 3]? = some (xorAll t.fb)) ∧
  (∀ s t : State, exec .envclose s = .next t → t.err = .noError → xorAll t.sb = 0)

/-- The chunks of a buffer give the buffer back; every chunk but the last has 126 payload bytes, the last has what
remains; the packets have two bytes more each (42_codec.md rule R105, whose last sentence the spec marks as derived). -/
def Obligations.ChunksReconstructTheBuffer : Prop :=
  ∀ s : State, s.sb.length ≤ 6144 →
    ((List.range (chunkCount s.sb)).flatMap fun k =>
      (({ s with choff := BitVec.ofNat 13 (126 * k) } : State).buildChunk.fb.drop 1).dropLast) = s.sb ∧
    (∀ k < chunkCount s.sb,
      ({ s with choff := BitVec.ofNat 13 (126 * k) } : State).buildChunk.fb.length =
        (if k + 1 < chunkCount s.sb then 126
         else if s.sb.length % 126 = 0 then 126 else s.sb.length % 126) + 2) ∧
    ((List.range (chunkCount s.sb)).map fun k =>
      ({ s with choff := BitVec.ofNat 13 (126 * k) } : State).buildChunk.fb.length).sum =
        s.sb.length + 2 * chunkCount s.sb

/-! ## ReliableTransport -/

/-- PKTSEND (43_transport.md rule R119): an empty FB is Done at once with RES0 0; otherwise the sending of FB begins,
with the retry counter 0. -/
def Obligations.PktsendSendsTheOuterPacket : Prop :=
  ∀ s : State, exec .pktsend s =
    if s.fb = [] then .next (finished { s with retry := 0, tstate := .done } .noError 0 0 0 false)
    else .next { s with retry := 0, tstate := .sending, txpos := 0, sleeping := none }

/-- BULKSEND (43_transport.md rule R120): an empty SB is Done at once; otherwise the sending of the first chunk begins. -/
def Obligations.BulksendSendsTheFirstChunk : Prop :=
  ∀ s : State, exec .bulksend s =
    if s.sb = [] then
      .next (finished { s with retry := 0, choff := 0, chcnt := 0, tstate := .done } .noError 0 0 0 false)
    else
      .next { s with retry := 0, choff := 0, chcnt := 0, fb := bulkPacket (chunkOf s.sb 0), tstate := .sending,
                     txpos := 0, sleeping := none }

/-- Sending (43_transport.md rules R109, R110): the bytes of FB enter TX in index order, each once; then the wait begins
with T0 the time of that moment. RX is not read.
The number of steps is the model's (log 11). -/
def Obligations.SendingEmitsThePacketInOrder : Prop :=
  ∀ s : State, s.busy = true → s.tstate = .sending → s.txpos = 0 → s.txReady = true → s.env = [] →
    Host.Core.run Sys2Proof.core (s.fb.length + 1) s =
      .next { s with tx := s.tx ++ s.fb, tstate := .awaitingAck, t0 := s.now, txpos := 0, sleeping := none }

/-- A transport that never accepts the byte keeps the block in Sending, and BUSY (70_reset_and_hazards.md rule R163);
the step at which the byte waits is the model's (log 11). -/
def Obligations.UnreadyTransportHoldsTheBlock : Prop :=
  ∀ (s : State) (n : Nat), s.busy = true → s.tstate = .sending → s.txpos < s.fb.length → s.txReady = false →
    s.env = [] → Host.Core.run Sys2Proof.core n s = .next s

/-- The ACK (43_transport.md rules R112, R119, R120, R121): the retry counter is reset; PKTSEND is Done; a bulk transfer
goes on with the next chunk, or is Done with its counts. -/
def Obligations.AckAdvancesTheTransfer : Prop :=
  ∀ (s : State) (rest : List Byte), s.busy = true → s.tstate = .awaitingAck → s.sleeping = none → s.env = [] →
    s.rx = 0x06 :: rest →
    (s.op = 0x31 →
      step s = .next (finished { s with rx := rest, retry := 0, tstate := .done } .noError 0 1 0 false)) ∧
    (s.op ≠ 0x31 → ∀ off : Nat, off = (s.choff + BitVec.ofNat 13 (s.fb.length - 2)).toNat →
      (off < s.sb.length →
        step s = .next { s with rx := rest, retry := 0, choff := BitVec.ofNat 13 off, chcnt := s.chcnt + 1,
                                fb := bulkPacket ((s.sb.drop off).take 126), tstate := .sending, txpos := 0,
                                sleeping := none }) ∧
      (s.sb.length ≤ off →
        step s = .next (finished
          { s with rx := rest, retry := 0, choff := BitVec.ofNat 13 off, chcnt := s.chcnt + 1, tstate := .done }
          .noError 0 ((s.chcnt + 1).setWidth 16) (BitVec.ofNat 16 off) false)))

/-- Noise (43_transport.md rule R113): the byte is removed; RETRY and T0 do not change; the timeout test and the sleep
follow as if nothing had been received. -/
def Obligations.NoiseDoesNotExtendTheWait : Prop :=
  ∀ (s : State) (b : Byte) (rest : List Byte), s.busy = true → s.tstate = .awaitingAck → s.sleeping = none →
    s.env = [] → s.rx = b :: rest → b = 0x00 ∨ b = 0xFF →
    step s =
      if 10000 ≤ (s.now - s.t0).toNat then
        .next (finished { s with rx := rest, tstate := .failed } .sendError 1
          (if s.op = 0x31 then 0 else s.chcnt.setWidth 16) (if s.op = 0x31 then 0 else s.choff.setWidth 16) false)
      else .next { s with rx := rest, sleeping := some s.now }

/-- The NAK (43_transport.md rule R114): counted, then the same packet again, or Failed without a transmission on the
tenth. -/
def Obligations.NakResendsOrFails : Prop :=
  ∀ (s : State) (b : Byte) (rest : List Byte), s.busy = true → s.tstate = .awaitingAck → s.sleeping = none →
    s.env = [] → s.rx = b :: rest → IsNak b →
    (s.retry.toNat < 9 →
      step s = .next { s with rx := rest, retry := s.retry + 1, tstate := .sending, txpos := 0, sleeping := none }) ∧
    (s.retry = 9 →
      step s = .next (finished { s with rx := rest, retry := 10, tstate := .failed } .sendError 2
        (if s.op = 0x31 then 0 else s.chcnt.setWidth 16) (if s.op = 0x31 then 0 else s.choff.setWidth 16) false))

/-- The end of a poll that found no byte (43_transport.md rules R111, R115): Failed from 10000 ms on, by a subtraction
modulo 2^32; a delay of 10 ms otherwise. -/
def Obligations.SilentPollTimesOutOrSleeps : Prop :=
  ∀ s : State, s.busy = true → s.tstate = .awaitingAck → s.sleeping = none → s.env = [] → s.rx = [] →
    step s =
      if 10000 ≤ (s.now - s.t0).toNat then
        .next (finished { s with tstate := .failed } .sendError 1
          (if s.op = 0x31 then 0 else s.chcnt.setWidth 16) (if s.op = 0x31 then 0 else s.choff.setWidth 16) false)
      else .next { s with sleeping := some s.now }

/-- `sleepMillis(10)` returns once NOW has advanced by at least 10 (10_state.md rules R31, R32), and reads nothing. The
separate step at which it returns is the model's (log 12). -/
def Obligations.SleepLastsAtLeastTheInterval : Prop :=
  ∀ (s : State) (start : Millis), s.busy = true → s.tstate = .awaitingAck → s.sleeping = some start → s.env = [] →
    step s = if (s.now - start).toNat < 10 then .next s else .next { s with sleeping := none }

/-- A packet is delivered after up to nine NAKs (43_transport.md rules R108, R114, R119): it is transmitted once more
than it was refused, and the ACK ends the command with RES0 1.
The number of steps is the model's (log 11). -/
def Obligations.PacketIsDeliveredAfterNaks : Prop :=
  ∀ (s : State) (naks rest : List Byte), s.busy = false → s.env = [.hostWrite .cmd 0x0031] → s.txReady = true →
    s.fb ≠ [] → naks.length ≤ 9 → (∀ b ∈ naks, IsNak b) → s.rx = naks ++ 0x06 :: rest →
    Host.Core.run Sys2Proof.core (1 + (naks.length + 1) * (s.fb.length + 2)) s =
      .next (finished
        { s with env := [], cmd := 0x0031, op := 0x31, tx := s.tx ++ (List.replicate (naks.length + 1) s.fb).flatten,
                 rx := rest, retry := 0, tstate := .done, t0 := s.now, txpos := 0, sleeping := none }
        .noError 0 1 0 false)

/-- The tenth NAK in a row ends the transfer with SendError 2 after ten transmissions (43_transport.md rules R114, R117;
95_test_vectors.md S6).
The number of steps is the model's (log 11). -/
def Obligations.TenNaksFailTheTransfer : Prop :=
  ∀ (s : State) (naks rest : List Byte), s.busy = false → s.env = [.hostWrite .cmd 0x0031] → s.txReady = true →
    s.fb ≠ [] → naks.length = 10 → (∀ b ∈ naks, IsNak b) → s.rx = naks ++ rest →
    Host.Core.run Sys2Proof.core (1 + 10 * (s.fb.length + 2)) s =
      .next (finished
        { s with env := [], cmd := 0x0031, op := 0x31, tx := s.tx ++ (List.replicate 10 s.fb).flatten,
                 rx := rest, retry := 10, tstate := .failed, t0 := s.now, txpos := 0, sleeping := none }
        .sendError 2 0 0 false)

/-- A bulk transfer whose every chunk is acknowledged (43_transport.md rules R116, R120; 42_codec.md rules R104, R105):
the wire carries the chunks of SB in order, and the counts are the number of chunks and of bytes.
The number of steps is the model's (log 11). -/
def Obligations.BulkTransferDeliversEveryChunk : Prop :=
  ∀ (s : State) (rest : List Byte), s.busy = false → s.env = [.hostWrite .cmd 0x0032] → s.txReady = true →
    s.sb ≠ [] → s.sb.length ≤ 6144 → s.rx = List.replicate (chunkCount s.sb) 0x06 ++ rest →
    Host.Core.run Sys2Proof.core (1 + s.sb.length + 4 * chunkCount s.sb) s =
      .next (finished
        { s with env := [], cmd := 0x0032, op := 0x32, tx := s.tx ++ bulkStream s.sb, rx := rest, retry := 0,
                 choff := BitVec.ofNat 13 s.sb.length, chcnt := BitVec.ofNat 13 (chunkCount s.sb),
                 fb := bulkPacket (chunkOf s.sb (chunkCount s.sb - 1)), tstate := .done, t0 := s.now, txpos := 0,
                 sleeping := none }
        .noError 0 (BitVec.ofNat 16 (chunkCount s.sb)) (BitVec.ofNat 16 s.sb.length) false)

/-- Silence (43_transport.md rules R115, R122): however the time base advances, by at least 10 ms a poll, the wait ends
in SendError 1 at the first poll at which 10000 ms have passed, after at most 1001 polls; nothing is resent.
That a sleep and a poll are one step each is the model's (log 12). -/
def Obligations.SilenceEndsInATimeout : Prop :=
  ∀ (s : State) (ds : List Nat), s.busy = true → s.tstate = .awaitingAck → s.sleeping = none → s.rx = [] →
    s.t0 = s.now → s.env = .turn :: silence ds → (∀ d ∈ ds, 10 ≤ d) → ds.dropLast.sum < 10000 → 10000 ≤ ds.sum →
    ds.sum < 2 ^ 32 →
    ds.length ≤ 1000 ∧
    Host.Core.run Sys2Proof.core (1 + 3 * ds.length) s =
      .next (finished { s with env := [], now := s.now + BitVec.ofNat 32 ds.sum, tstate := .failed } .sendError 1
        (if s.op = 0x31 then 0 else s.chcnt.setWidth 16) (if s.op = 0x31 then 0 else s.choff.setWidth 16) false)

/-! ## ExportOrchestrator -/

/-- ENVOPEN (44_export.md rule R125).
The byte 0x55 of the letter U is the spec's own presumption (D39, log 14). -/
def Obligations.EnvopenStagesTheHeader : Prop :=
  decode 0x0040 = .ok .envopen ∧ ∀ s : State,
    exec .envopen s = .next (finished { s with sb := openHeader s.img, sbptr := 0 } .noError 0 7 0 false)

/-- ENVCLOSE (44_export.md rule R126). -/
def Obligations.EnvcloseClosesTheEnvelope : Prop :=
  decode 0x0041 = .ok .envclose ∧ ∀ s : State, exec .envclose s =
    if s.sb.length < 2 then .next (finished s .operandError 5 0 0 false)
    else if 6144 < s.sb.length + 1 then .next (finished s .bufferOverflow 1 0 0 false)
    else .next (finished { s with sb := closed s.sb } .noError 0 (BitVec.ofNat 16 (s.sb.length - 2))
      ((0 : Byte) ++ xorAll (littleEndian (s.sb.length - 2) ++ s.sb.drop 2)) false)

/-- EXPORT begins (44_export.md rule R127 steps 1 to 3; 60_exceptions.md rule R133): the header is staged; with no stored
dive it ends with DiveCountNullError and no byte sent; otherwise the staging of dive 0 is next.
That the staging goes on in later steps is the model's (log 10); the header's 0x55 is the spec's presumption (log 14). -/
def Obligations.ExportStagesTheHeader : Prop :=
  ∀ s : State, exec .exportRun s =
    if storedDives s.img = 0 then
      .next (finished { s with tstate := .idle, dive := 0, imageChanged := false, count := s.img.get 0x7F5,
                               sb := openHeader s.img, sbptr := 0 } .diveCountNull 0 0 0 false)
    else .next { s with tstate := .idle, dive := 0, imageChanged := false, count := s.img.get 0x7F5,
                        sb := openHeader s.img, sbptr := 0 }

/-- One dive of EXPORT (44_export.md rules R127, R128): its record is staged, or the run ends with DataError 2; after the
last dive the envelope is closed and the transmission begins. That a dive is one step is the model's (log 10). Where the
image has changed (70_reset_and_hazards.md rule R155, U5), whether a profile is found, how many samples it has and every
byte copied are any value (log 6); that a record without room is a BufferOverflow is the model's (log 26). -/
def Obligations.ExportStagesOneDive : Prop :=
  ∀ s : State, s.busy = true → s.tstate = .idle → s.env = [] →
    (s.imageChanged = false →
      step s =
        match profileSegment s.img s.dive.toNat with
        | none => .next (finished { s with sb := s.sb ++ recordHead s.img s.dive.toNat } .dataError 2 0 0 false)
        | some _ => .next (afterDive s (diveRecord s.img s.dive.toNat))) ∧
    (s.imageChanged = true → ∃ (head samples : List Byte) (k : Nat), head.length = 16 ∧ samples.length ≤ 0x5FE ∧
      (step s = .next (finished { s with sb := s.sb ++ head, freeCtr := k } .dataError 2 0 0 false) ∨
        step s = .next (afterDive { s with freeCtr := k } (head ++ littleEndian samples.length ++ samples)) ∨
        (6144 < s.sb.length + 0x5FE + 19 ∧ step s = .next (finished { s with freeCtr := k } .bufferOverflow 1 0 0 false))))

/-- A complete staging (44_export.md rules R127, R128; 30_encoding.md rules R71, R72): when every stored dive has a
profile, SB holds the envelope of the image, dive 0 first, and nothing has been sent.
The number of steps is the model's (log 10); the envelope's 0x55 is the spec's presumption (log 14). -/
def Obligations.ExportStagesTheEnvelope : Prop :=
  ∀ s : State, s.busy = false → s.env = [.hostWrite .cmd 0x0042] → storedDives s.img ≠ 0 → allProfilesFound s.img →
    Host.Core.run Sys2Proof.core (1 + storedDives s.img) s =
      .next { s with env := [], cmd := 0x0042, op := 0x42, busy := true, done := false, err := .noError, flag := false,
                     dive := BitVec.ofNat 8 (storedDives s.img - 1), imageChanged := false,
                     count := s.img.get 0x7F5, sb := envelope s.img, sbptr := 0, retry := 0, choff := 0, chcnt := 0, fb := bulkPacket (chunkOf (envelope s.img) 0), tstate := .sending,
                     txpos := 0, sleeping := none }

/-- The size bound (44_export.md rule R130): from any state, an EXPORT never has more than 5878 bytes staged. -/
def Obligations.ExportNeverStagesMoreThanTheBound : Prop :=
  ∀ (s t : State) (k : Nat), s.busy = false → s.env = [.hostWrite .cmd 0x0042] → 1 ≤ k →
    Host.Core.run Sys2Proof.core k s = .next t → t.sb.length ≤ 5878

/-- A dive without a profile (44_export.md rule R128; 60_exceptions.md rules R134, R140): DataError 2, DIVE is the dive,
SB is left as staged so far, TX and the transport registers are as before the command.
The number of steps is the model's (log 10); the header's 0x55 is the spec's presumption (log 14). -/
def Obligations.ExportDataErrorSendsNothing : Prop :=
  ∀ (s : State) (n : Nat), s.busy = false → s.env = [.hostWrite .cmd 0x0042] →
    n = (sentinelDistances s.img).length → n < storedDives s.img →
    Host.Core.run Sys2Proof.core (2 + n) s =
      .next (finished
        { s with env := [], cmd := 0x0042, op := 0x42, dive := BitVec.ofNat 8 n, imageChanged := false,
                 count := s.img.get 0x7F5,
                 sb := openHeader s.img ++ diveRecords s.img n ++ recordHead s.img n, sbptr := 0, tstate := .idle }
        .dataError 2 0 0 false)

/-- A whole export (44_export.md rules R127, R128; 60_exceptions.md rule R132): every chunk of the envelope transmitted
and acknowledged, in order.
The number of steps is the model's (log 10, log 11); the envelope's 0x55 is the spec's presumption (log 14). -/
def Obligations.ExportDeliversTheEnvelope : Prop :=
  ∀ (s : State) (rest : List Byte), s.busy = false → s.env = [.hostWrite .cmd 0x0042] → s.txReady = true →
    storedDives s.img ≠ 0 → allProfilesFound s.img →
    s.rx = List.replicate (chunkCount (envelope s.img)) 0x06 ++ rest →
    Host.Core.run Sys2Proof.core
        (1 + storedDives s.img + (envelope s.img).length + 4 * chunkCount (envelope s.img)) s =
      .next (finished
        { s with env := [], cmd := 0x0042, op := 0x42, dive := BitVec.ofNat 8 (storedDives s.img - 1),
                 imageChanged := false, count := s.img.get 0x7F5,
                 sb := envelope s.img, sbptr := 0, tx := s.tx ++ bulkStream (envelope s.img), rx := rest, retry := 0,
                 choff := BitVec.ofNat 13 (envelope s.img).length,
                 chcnt := BitVec.ofNat 13 (chunkCount (envelope s.img)),
                 fb := bulkPacket (chunkOf (envelope s.img) (chunkCount (envelope s.img) - 1)), tstate := .done,
                 t0 := s.now, txpos := 0, sleeping := none }
        .noError 0 (BitVec.ofNat 16 (chunkCount (envelope s.img))) (BitVec.ofNat 16 (envelope s.img).length) false)

/-- The step-by-step export (44_export.md rule R129): the host program over the other commands stages the same envelope
as EXPORT, completes normally and sends nothing.
That a command is one step is the model's (log 10, log 24); the envelope's 0x55 is the spec's presumption (log 14). -/
def Obligations.StepByStepExportStagesTheSameEnvelope : Prop :=
  ∀ s : State, s.busy = false → s.env = exportProgram s.img → storedDives s.img ≠ 0 → allProfilesFound s.img →
    ∃ t : State, Host.Core.run Sys2Proof.core (exportProgram s.img).length s = .next t ∧
      t.sb = envelope s.img ∧ t.err = .noError ∧ t.busy = false ∧ t.env = [] ∧ t.tx = s.tx ∧ t.rx = s.rx ∧
      t.fb = s.fb ∧ t.tstate = s.tstate ∧ t.img = s.img

/-! ## Errors and completion -/

/-- Which command can end with which code (60_exceptions.md rule R137), for the ends that exec itself reaches. -/
def Obligations.CommandsEndWithTheirOwnCodes : Prop :=
  ∀ (i : Instr) (s t : State), s.busy = true → exec i s = .next t → t.busy = false →
    allowedEnd i t.err t.errinfo = true ∧ t.done = true

/-- A command that ends with OperandError or BufferOverflow is refused whole (60_exceptions.md rule R136). -/
def Obligations.RefusedCommandsChangeNothingElse : Prop :=
  ∀ (i : Instr) (s t : State), s.err = .noError → exec i s = .next t → t.err = .operandError ∨ t.err = .bufferOverflow →
    t = finished s t.err t.errinfo 0 0 false

/-- No crash (60_exceptions.md rule R148; 20_memory.md rule R62): every command, on every state, with every image and
operand, has a next state. -/
def Obligations.NoCommandCrashes : Prop :=
  ∀ (i : Instr) (s : State), ∃ t : State, exec i s = .next t

/-- No crash (60_exceptions.md rule R148): the machine steps from every state, whatever the environment does. -/
def Obligations.NoStateStopsTheMachine : Prop :=
  ∀ s : State, ∃ t : State, step s = .next t

/-! ## The host port -/

/-- Host writes while BUSY = 1 are ignored, CMD's among them (10_state.md rules R12, R33). -/
def Obligations.WritesAreLostWhileBusy : Prop :=
  ∀ (s : State) (r : HostReg) (v : Half) (rest : List Event), s.busy = true → s.env = .hostWrite r v :: rest →
    step s = .next { s with env := rest }

/-- Writes while BUSY = 0 (10_state.md rules R11, R13, R19, R21): operands and pointers take the value in their width,
read-only registers ignore it. -/
def Obligations.IdleWritesReachTheWritableRegisters : Prop :=
  ∀ (s : State) (v : Half) (rest : List Event), s.busy = false →
    (s.env = .hostWrite .arg0 v :: rest → step s = .next { s with env := rest, arg0 := v }) ∧
    (s.env = .hostWrite .arg1 v :: rest → step s = .next { s with env := rest, arg1 := v }) ∧
    (s.env = .hostWrite .sbptr v :: rest → step s = .next { s with env := rest, sbptr := v.extractLsb' 0 13 }) ∧
    (s.env = .hostWrite .fbptr v :: rest → step s = .next { s with env := rest, fbptr := v.extractLsb' 0 8 }) ∧
    ∀ r ∈ [HostReg.status, .res0, .res1, .errinfo, .dive, .sblen, .fblen, .fbdata, .retry, .choff],
      s.env = .hostWrite r v :: rest → step s = .next { s with env := rest }

/-- Host reads (10_state.md rules R11, R13, R15 to R18, R20, R22, R23, R33). While BUSY = 0 a register returns its value,
zero-extended. While BUSY = 1 the progress registers do; the result and buffer registers return some value of their
width, and the data windows do not move their pointers. The counter of free values is the model's (log 1), and so is that
SBPTR and FBPTR are among the latter (log 13). -/
def Obligations.HostReadsReturnTheRegisters : Prop :=
  ∀ (s : State) (rest : List Event),
    (s.busy = false →
      ∀ p ∈ [(HostReg.cmd, s.cmd), (.arg0, s.arg0), (.arg1, s.arg1), (.res0, s.res0), (.res1, s.res1),
          (.errinfo, s.errinfo.setWidth 16), (.dive, s.dive.setWidth 16),
          (.sblen, (BitVec.ofNat 13 s.sb.length).setWidth 16), (.sbptr, s.sbptr.setWidth 16),
          (.fblen, (BitVec.ofNat 8 s.fb.length).setWidth 16), (.fbptr, s.fbptr.setWidth 16),
          (.retry, s.retry.setWidth 16), (.choff, s.choff.setWidth 16)],
        s.env = .hostRead p.1 :: rest → step s = .next { s with env := rest, hostOut := s.hostOut ++ [p.2] }) ∧
    (s.busy = true →
      (∀ p ∈ [(HostReg.status, s.statusWord), (.retry, s.retry.setWidth 16), (.choff, s.choff.setWidth 16),
          (.dive, s.dive.setWidth 16), (.cmd, s.cmd), (.arg0, s.arg0), (.arg1, s.arg1)],
        s.env = .hostRead p.1 :: rest → step s = .next { s with env := rest, hostOut := s.hostOut ++ [p.2] }) ∧
      (∀ p ∈ [(HostReg.res0, 16), (.res1, 16), (.errinfo, 4), (.sblen, 13), (.fblen, 8), (.sbdata, 8), (.fbdata, 8),
          (.sbptr, 13), (.fbptr, 8)],
        s.env = .hostRead p.1 :: rest →
        ∃ v : Half, v.toNat < 2 ^ p.2 ∧
          step s = .next { s with env := rest, hostOut := s.hostOut ++ [v], freeCtr := s.freeCtr + 1 }))

/-- The host's window on SB (10_state.md rule R19; 41_serializer.md rule R99): a read returns the byte at SBPTR, or some
byte at or beyond SBLEN, and moves SBPTR modulo 8192; a write appends, or is dropped on a full buffer.
The counter of free values is the model's (log 1). -/
def Obligations.SbdataIsAWindowOnTheStagingBuffer : Prop :=
  ∀ (s : State) (rest : List Event), s.busy = false →
    (s.env = .hostRead .sbdata :: rest →
      (∀ h : s.sbptr.toNat < s.sb.length,
        step s = .next { s with env := rest, sbptr := BitVec.ofNat 13 ((s.sbptr.toNat + 1) % 8192),
                                hostOut := s.hostOut ++ [(0 : Byte) ++ s.sb[s.sbptr.toNat]] }) ∧
      (s.sb.length ≤ s.sbptr.toNat →
        ∃ b : Byte, step s = .next
          { s with env := rest, sbptr := BitVec.ofNat 13 ((s.sbptr.toNat + 1) % 8192),
                   hostOut := s.hostOut ++ [(0 : Byte) ++ b], freeCtr := s.freeCtr + 1 })) ∧
    (∀ v : Half, s.env = .hostWrite .sbdata v :: rest →
      step s = if s.sb.length < 6144 then .next { s with env := rest, sb := s.sb ++ [v.extractLsb' 0 8] }
        else .next { s with env := rest })

/-- The host's window on FB (10_state.md rule R21).
The counter of free values is the model's (log 1). -/
def Obligations.FbdataIsAWindowOnThePacket : Prop :=
  ∀ (s : State) (rest : List Event), s.busy = false → s.fb.length ≤ 128 → s.env = .hostRead .fbdata :: rest →
    (∀ h : s.fbptr.toNat < s.fb.length,
      step s = .next { s with env := rest, fbptr := BitVec.ofNat 8 ((s.fbptr.toNat + 1) % 256),
                              hostOut := s.hostOut ++ [(0 : Byte) ++ s.fb[s.fbptr.toNat]] }) ∧
    (s.fb.length ≤ s.fbptr.toNat →
      ∃ b : Byte, step s = .next
        { s with env := rest, fbptr := BitVec.ofNat 8 ((s.fbptr.toNat + 1) % 256),
                 hostOut := s.hostOut ++ [(0 : Byte) ++ b], freeCtr := s.freeCtr + 1 })

/-- The layout of STATUS (10_state.md rule R14), as a read of it returns it. -/
def Obligations.StatusReadsItsFields : Prop :=
  ∀ (s : State) (rest : List Event), s.env = .hostRead .status :: rest →
    ∃ w : Half, step s = .next { s with env := rest, hostOut := s.hostOut ++ [w] } ∧
      w.getLsbD 0 = s.busy ∧ w.getLsbD 1 = s.done ∧ w.getLsbD 2 = s.flag ∧ w.getLsbD 3 = false ∧
      w.extractLsb' 4 4 =
        (match s.err with
          | .noError => 0 | .diveCountNull => 1 | .dataError => 2 | .sendError => 3
          | .illegalCommand => 4 | .operandError => 5 | .bufferOverflow => 6) ∧
      w.extractLsb' 8 3 =
        (match s.tstate with | .idle => 0 | .sending => 1 | .awaitingAck => 2 | .done => 3 | .failed => 4) ∧
      w.extractLsb' 11 5 = 0

/-! ## Reset and the environment -/

/-- Reset (70_reset_and_hazards.md rules R150, R151): every register of the block is 0 and the buffers are empty, also
in the middle of a command; TX, RX, NOW and the image are not touched. -/
def Obligations.ResetClearsTheBlock : Prop :=
  ∀ (s : State) (rest : List Event), s.env = .rst :: rest →
    ∃ t : State, step s = .next t ∧
      t.cmd = 0 ∧ t.arg0 = 0 ∧ t.arg1 = 0 ∧ t.busy = false ∧ t.done = false ∧ t.flag = false ∧ t.err = .noError ∧
      t.tstate = .idle ∧ t.res0 = 0 ∧ t.res1 = 0 ∧ t.errinfo = 0 ∧ t.dive = 0 ∧ t.sb.length = 0 ∧ t.sbptr = 0 ∧
      t.fb.length = 0 ∧ t.fbptr = 0 ∧ t.retry = 0 ∧ t.choff = 0 ∧ t.op = 0 ∧ t.chcnt = 0 ∧
      t.tx = s.tx ∧ t.rx = s.rx ∧ t.now = s.now ∧ t.img = s.img ∧ t.env = rest

/-- The idle block does nothing until CMD is written (70_reset_and_hazards.md rule R152), after reset and later: the
sequencer's step leaves the whole state, and no action of the environment but a write of CMD makes it busy, sends a byte
or, but for `rst`, changes DONE, ERR, TSTATE or a result. The silent environment of State.reset is the model's (log 4). -/
def Obligations.IdleBlockWaits : Prop :=
  (∀ n : Nat, Host.Core.run Sys2Proof.core n State.reset = .next State.reset) ∧
  (∀ s : State, s.busy = false → s.env = [] → step s = .next s) ∧
  (∀ (s : State) (rest : List Event), s.busy = false → s.env = .turn :: rest → step s = .next { s with env := rest }) ∧
  ∀ (s : State) (e : Event) (rest : List Event), s.busy = false → s.env = e :: rest → (∀ v, e ≠ .hostWrite .cmd v) →
    ∃ t : State, step s = .next t ∧ t.busy = false ∧ t.tx = s.tx ∧
      (e ≠ .rst → t.done = s.done ∧ t.err = s.err ∧ t.flag = s.flag ∧ t.tstate = s.tstate ∧ t.res0 = s.res0 ∧
        t.res1 = s.res1 ∧ t.errinfo = s.errinfo ∧ t.dive = s.dive ∧ t.fb = s.fb ∧ t.retry = s.retry ∧ t.choff = s.choff)

/-- The environment's other actions (10_state.md rules R27, R31, R32; 70_reset_and_hazards.md rule R155): a byte arrives
at the end of RX, the time base advances, the transport becomes ready or not, a byte of the image is presented; nothing
else changes, also inside a command. The one exception is a byte that EXPORT can tell from the old one, while it is
staging: each staged byte becomes any value (U5; log 6). The list of actions and the counter of free values are the
model's (log 8, log 1). -/
def Obligations.EnvironmentActionsTakeEffect : Prop :=
  ∀ (s : State) (rest : List Event),
    (∀ b, s.env = .arrive b :: rest → step s = .next { s with env := rest, rx := s.rx ++ [b] }) ∧
    (∀ d, s.env = .advance d :: rest → step s = .next { s with env := rest, now := s.now + d }) ∧
    (∀ r, s.env = .txReady r :: rest → step s = .next { s with env := rest, txReady := r }) ∧
    (∀ (a : BitVec 11) (b : Byte), s.env = .imageByte a b :: rest → s.img.wf = true →
      ∃ m : Memory, m.wf = true ∧ m.get a.toNat = b ∧ (∀ x, x ≠ a.toNat → m.get x = s.img.get x) ∧
        (¬ (s.busy = true ∧ s.tstate = .idle ∧ exportTells a.toNat (s.img.get a.toNat) b) →
          step s = .next { s with env := rest, img := m }) ∧
        (s.busy = true → s.tstate = .idle → exportTells a.toNat (s.img.get a.toNat) b →
          ∃ bs : List Byte, bs.length = s.sb.length ∧
            step s = .next { s with env := rest, img := m, sb := bs, imageChanged := true,
                                    freeCtr := s.freeCtr + s.sb.length }))

/-- The image bytes that no rule reads have no effect on any command, nor on the sequencer's steps inside one
(20_memory.md rule R50, which the spec marks as derived). -/
def Obligations.UnreadImageBytesHaveNoEffect : Prop :=
  ∀ (s : State) (m : Memory),
    (∀ a, a < 0x7BD ∨ (0x7ED ≤ a ∧ a ≤ 0x7EF) ∨ (0x7F2 ≤ a ∧ a ≤ 0x7FB) → m.get a = s.img.get a) →
    (∀ i : Instr, ∃ t : State, exec i s = .next t ∧ exec i { s with img := m } = .next { t with img := m }) ∧
    (s.env = [] → ∃ t : State, step s = .next t ∧ step { s with img := m } = .next { t with img := m })

/-! ## The invariant -/

/-- The invariant holds at reset.
The empty image of State.reset is the model's (log 4). -/
def Obligations.InvariantHoldsAtReset : Prop := Inv State.reset

/-- Every step keeps the invariant, whatever the environment does. -/
def Obligations.StepKeepsTheInvariant : Prop :=
  ∀ s t : State, Inv s → step s = .next t → Inv t
end

