-- ==== Sys2Proof/Laws/Memory.lean ====
section
/-! SUPPORT. The image as a list of cells: reading after writing, and the canonical form. -/

namespace Sys2Proof.Machine

open Sys2Proof.Param

theorem Memory.wfFrom_cons (lo a : Nat) (b : Byte) (m : Memory) :
    Memory.wfFrom lo ((a, b) :: m) = true ↔
      lo ≤ a ∧ a < imgSize ∧ b ≠ Memory.unlisted ∧ Memory.wfFrom (a + 1) m = true := by
  simp [Memory.wfFrom, and_assoc]

theorem Memory.wfFrom_mono {lo lo' : Nat} (h : lo' ≤ lo) : ∀ {m : Memory}, Memory.wfFrom lo m = true →
    Memory.wfFrom lo' m = true
  | [], _ => rfl
  | (a, b) :: m, hm => by
    rw [Memory.wfFrom_cons] at hm ⊢
    exact ⟨h.trans hm.1, hm.2⟩

/-- An address below every listed one reads as unlisted. -/
theorem Memory.get_below {lo : Nat} : ∀ {m : Memory}, Memory.wfFrom lo m = true → ∀ {a : Nat}, a < lo →
    m.get a = Memory.unlisted
  | [], _, _, _ => rfl
  | (k, b) :: m, hm, a, ha => by
    rw [Memory.wfFrom_cons] at hm
    have hne : a ≠ k := by omega
    simp only [Memory.get, hne, if_false]
    exact Memory.get_below hm.2.2.2 (by omega)

/-- A write leaves every other address alone. -/
theorem Memory.get_put_other : ∀ (m : Memory) {a a' : Nat} (b : Byte), a' ≠ a → (m.put a b).get a' = m.get a'
  | [], a, a', b, h => by
    by_cases hb : b = Memory.unlisted <;> simp [Memory.put, Memory.get, hb, h]
  | (k, c) :: m, a, a', b, h => by
    have ih := Memory.get_put_other m b h
    simp only [Memory.put]
    split
    · split <;> simp [Memory.get, h]
    · split
      · next _ hk => subst hk; split <;> simp [Memory.get, h]
      · simp only [Memory.get, ih]

/-- A read after a write to the same address gives the byte written. -/
theorem Memory.get_put_same {lo : Nat} : ∀ {m : Memory}, Memory.wfFrom lo m = true → ∀ (a : Nat) (b : Byte),
    (m.put a b).get a = b
  | [], _, a, b => by by_cases hb : b = Memory.unlisted <;> simp [Memory.put, Memory.get, hb]
  | (k, c) :: m, hm, a, b => by
    have hm' := (Memory.wfFrom_cons lo k c m).1 hm
    simp only [Memory.put]
    split
    · next hk =>
      split
      · next hb => subst hb; exact Memory.get_below (lo := k) (by rw [Memory.wfFrom_cons]; exact ⟨le_rfl, hm'.2⟩) hk
      · simp [Memory.get]
    · split
      · next _ hk =>
        split
        · next hb => subst hb hk; exact Memory.get_below hm'.2.2.2 (Nat.lt_succ_self a)
        · simp [Memory.get]
      · next _ hk => simp only [Memory.get, hk, if_false]; exact Memory.get_put_same hm'.2.2.2 a b

/-- A write keeps the canonical form. -/
theorem Memory.put_wfFrom {lo : Nat} : ∀ {m : Memory}, Memory.wfFrom lo m = true → ∀ {a : Nat} (b : Byte), lo ≤ a →
    a < imgSize → Memory.wfFrom lo (m.put a b) = true
  | [], _, a, b, hlo, ha => by
    by_cases hb : b = Memory.unlisted
    · simp [Memory.put, hb, Memory.wfFrom]
    · simp only [Memory.put, hb, if_false, Memory.wfFrom_cons]
      exact ⟨hlo, ha, hb, rfl⟩
  | (k, c) :: m, hm, a, b, hlo, ha => by
    have hm' := (Memory.wfFrom_cons lo k c m).1 hm
    simp only [Memory.put]
    split
    · next hk =>
      split
      · exact hm
      · next hb =>
        rw [Memory.wfFrom_cons]
        exact ⟨hlo, ha, hb, by rw [Memory.wfFrom_cons]; exact ⟨hk, hm'.2⟩⟩
    · split
      · next _ hk =>
        subst hk
        split
        · exact Memory.wfFrom_mono (by omega) hm'.2.2.2
        · next hb => rw [Memory.wfFrom_cons]; exact ⟨hlo, ha, hb, hm'.2.2.2⟩
      · next h1 h2 =>
        rw [Memory.wfFrom_cons]
        exact ⟨hm'.1, hm'.2.1, hm'.2.2.1, Memory.put_wfFrom hm'.2.2.2 b (by omega) ha⟩

/-- Every memory operation keeps the canonical form. -/
theorem Memory.put_wf {m : Memory} (hm : m.wf = true) {a : Nat} (b : Byte) (ha : a < imgSize) :
    (m.put a b).wf = true :=
  Memory.put_wfFrom hm b (Nat.zero_le a) ha

theorem Memory.reset_wf : State.reset.img.wf = true := rfl

/-- Two images in canonical form that read alike are equal. -/
theorem Memory.ext_of_wfFrom {lo : Nat} : ∀ {m m' : Memory}, Memory.wfFrom lo m = true → Memory.wfFrom lo m' = true →
    (∀ a, m.get a = m'.get a) → m = m'
  | [], [], _, _, _ => rfl
  | [], (k, c) :: m', _, h', he => by
    have h'' := (Memory.wfFrom_cons _ _ _ _).1 h'
    have := he k
    simp only [Memory.get, if_true] at this
    exact absurd this.symm h''.2.2.1
  | (k, c) :: m, [], h, _, he => by
    have h'' := (Memory.wfFrom_cons _ _ _ _).1 h
    have := he k
    simp only [Memory.get, if_true] at this
    exact absurd this h''.2.2.1
  | (k, c) :: m, (k', c') :: m', h, h', he => by
    have g := (Memory.wfFrom_cons _ _ _ _).1 h
    have g' := (Memory.wfFrom_cons _ _ _ _).1 h'
    have hk : k = k' := by
      rcases Nat.lt_trichotomy k k' with hlt | heq | hgt
      · have e := he k
        rw [Memory.get_below (lo := k') (m := (k', c') :: m') (a := k) (by rw [Memory.wfFrom_cons]; exact ⟨le_rfl, g'.2⟩) hlt] at e
        simp only [Memory.get, if_true] at e
        exact absurd e g.2.2.1
      · exact heq
      · have e := he k'
        rw [Memory.get_below (lo := k) (m := (k, c) :: m) (a := k') (by rw [Memory.wfFrom_cons]; exact ⟨le_rfl, g.2⟩) hgt] at e
        simp only [Memory.get, if_true] at e
        exact absurd e.symm g'.2.2.1
    subst hk
    have hc : c = c' := by have e := he k; simpa [Memory.get] using e
    subst hc
    have : m = m' := by
      refine Memory.ext_of_wfFrom g.2.2.2 g'.2.2.2 fun a => ?_
      by_cases ha : a = k
      · subst ha
        rw [Memory.get_below g.2.2.2 (Nat.lt_succ_self a), Memory.get_below g'.2.2.2 (Nat.lt_succ_self a)]
      · have e := he a
        simpa [Memory.get, ha] using e
    rw [this]

/-- Equal images are equal data. -/
theorem Memory.ext_of_wf {m m' : Memory} (h : m.wf = true) (h' : m'.wf = true) (he : ∀ a, m.get a = m'.get a) :
    m = m' :=
  Memory.ext_of_wfFrom h h' he

end Sys2Proof.Machine
end

