-- ==== Sys2Proof/Laws/Ops.lean ====
section
/-! SUPPORT. What the shared operations do: image reads, checksums, the serializer's lists of bytes, the codec. -/

namespace Sys2Proof.Machine

open Sys2Proof.Param Sys2Proof.Safety

/-! ## Image reads -/

theorem Memory.byteAt_ok (m : Memory) {a : Nat} (h : a < imgSize) : m.byteAt a = .ok (m.get a) := by
  simp [Memory.byteAt, h]

theorem Memory.byteAt_outside (m : Memory) {a : Nat} (h : imgSize ≤ a) : m.byteAt a = .error (.imageAddress a) := by
  simp [Memory.byteAt, Nat.not_lt.2 h]

theorem Memory.bytesAt_ok (m : Memory) : ∀ {as : List Nat}, (∀ a ∈ as, a < imgSize) → m.bytesAt as = .ok (as.map m.get)
  | [], _ => rfl
  | a :: as, h => by
    rw [Memory.bytesAt, Memory.byteAt_ok m (h a (by simp)), Memory.bytesAt_ok m fun x hx => h x (by simp [hx])]
    rfl

theorem orFault_ok {α : Type} (v : α) (k : α → Result) : orFault (.ok v) k = k v := rfl

theorem orFault_error {α : Type} (f : Fault) (k : α → Result) : orFault (.error f) k = .fault f := rfl

/-! ## Operands and index results -/

theorem indexOperand_eq (s : State) : s.indexOperand = s.arg0.toNat := by
  rw [State.indexOperand, BitVec.setWidth_eq]

theorem zext16_index (n : Nat) : zext16 (BitVec.ofNat idxW n) = BitVec.ofNat 16 n := BitVec.setWidth_eq _

/-! ## Free bytes -/

@[simp] theorem freeBytes_length (s : State) (n : Nat) : (s.freeBytes n).length = n := by simp [State.freeBytes]

/-! ## Checksums -/

theorem foldl_xor (l : List Byte) : ∀ a : Byte, l.foldl (fun x y => x ^^^ y) a = a ^^^ xor8 l := by
  induction l with
  | nil => intro a; simp [xor8]
  | cons b l ih => intro a; rw [List.foldl_cons, ih, xor8, BitVec.xor_assoc]

/-- The model's checksum is the exclusive OR of all bytes. -/
theorem xor8_eq_xorAll (l : List Byte) : xor8 l = xorAll l := by
  rw [xorAll, foldl_xor]; simp

theorem xor8_append (l m : List Byte) : xor8 (l ++ m) = xor8 l ^^^ xor8 m := by
  induction l with
  | nil => simp [xor8]
  | cons b l ih => simp [xor8, ih, BitVec.xor_assoc]

theorem chunkPacket_eq (d : List Byte) : chunkPacket d = bulkPacket d := by
  simp [chunkPacket, bulkPacket, xor8_eq_xorAll]

theorem messageFrame_eq (d : List Byte) : messageFrame d = shortMessage d := by
  simp [messageFrame, shortMessage, innerChecksum, outerChecksum, xor8_eq_xorAll]

theorem bulkPacket_length (d : List Byte) : (bulkPacket d).length = d.length + 2 := by simp [bulkPacket]

theorem shortMessage_length (d : List Byte) : (shortMessage d).length = d.length + 5 := by simp [shortMessage]

/-! ## Fields and lists of bytes -/

theorem lo8_hi8 (v : Nat) : [lo8 v, hi8 v] = littleEndian v := by
  have h : ∀ n : Nat, BitVec.ofNat 8 (n % 256) = BitVec.ofNat 8 n := fun n => by
    apply BitVec.eq_of_toNat_eq; simp
  simp [lo8, hi8, littleEndian, h]

/-- Two bytes side by side as a number: the first is the more significant. -/
theorem concat_bytes (a b : Byte) : a ++ b = BitVec.ofNat 16 (a.toNat * 256 + b.toNat) := by
  apply BitVec.eq_of_toNat_eq
  have ha := a.isLt
  have hb := b.isLt
  rw [BitVec.toNat_append, BitVec.toNat_ofNat, Nat.shiftLeft_eq, Nat.mul_comm, ← Nat.two_pow_add_eq_or_of_lt hb]
  omega

theorem littleEndian_length (v : Nat) : (littleEndian v).length = 2 := rfl

theorem logaddr_eq (a : Nat) : logaddr a = reduced a := by
  unfold logaddr reduced
  split <;> rfl

theorem logaddr_lt (a : Nat) : logaddr a < 0x7BC := Nat.mod_lt _ (by decide)

theorem logbookEntry_eq (m : Memory) (i : Nat) : logbookEntry m i = .ok (entryBytes m i) := by
  rw [logbookEntry, Memory.bytesAt_ok]
  · simp [entryAddresses, entrySource, entryBytes, logaddr_eq]
  · intro a ha
    simp only [entryAddresses, List.mem_map] at ha
    obtain ⟨j, _, rfl⟩ := ha
    have := logaddr_lt (i + j)
    simp only [imgSize]; omega

theorem deviceIdentity_eq (m : Memory) : deviceIdentity m = .ok (identityBytes m) := by
  rw [deviceIdentity, Memory.bytesAt_ok _ (by decide)]
  rfl

theorem headerBytes_eq (m : Memory) : headerBytes m = .ok (openHeader m) := by
  rw [headerBytes, Memory.bytesAt_ok _ (by decide)]
  rfl

theorem storedDiveCount_eq (m : Memory) : storedDiveCount m = .ok (storedDives m) := by
  rw [storedDiveCount, Memory.byteAt_ok _ (by decide)]
  rfl

theorem next_eq {i : Nat} (h : i < 0x600) : next i = (i + 1) % 0x600 := by
  unfold next
  simp only [profEnd, profBase]
  split <;> omega

theorem sampleAddresses_eq : ∀ (count p : Nat), p < 0x600 →
    sampleAddresses count p = (List.range count).map fun k => (p + 1 + k) % 0x600
  | 0, _, _ => rfl
  | count + 1, p, h => by
    have hn : next p < 0x600 := by rw [next_eq h]; omega
    rw [sampleAddresses, sampleAddresses_eq count _ hn, List.range_succ_eq_map]
    simp only [List.map_cons, List.map_map, next_eq h, Nat.add_zero]
    congr 1
    apply List.map_congr_left
    intro k _
    simp only [Function.comp]
    omega

theorem profileSamples_eq (m : Memory) {start : Nat} (count : Nat) (h : start < 0x600) :
    profileSamples m start count = .ok (sampleBytes m start count) := by
  rw [profileSamples, sampleAddresses_eq _ _ h, Memory.bytesAt_ok]
  · simp [sampleBytes, Function.comp_def]
  · intro a ha
    simp only [List.mem_map] at ha
    obtain ⟨k, _, rfl⟩ := ha
    have : (start + 1 + k) % 0x600 < 0x600 := Nat.mod_lt _ (by decide)
    simp only [imgSize]; omega

theorem sampleBytes_length (m : Memory) (i count : Nat) : (sampleBytes m i count).length = count := by
  simp [sampleBytes]

theorem patchSize_eq (sb : List Byte) : patchSize sb = littleEndian (sb.length - 2) ++ sb.drop 2 := by
  rw [patchSize, lo8_hi8]

theorem closeEnvelope_eq (s : State) : s.closeEnvelope = { s with sb := closed s.sb } := by
  simp [State.closeEnvelope, closed, patchSize_eq, xor8_eq_xorAll]

end Sys2Proof.Machine
end

