-- ==== Sys2Proof/Laws/RingDecoder.lean ====
section
/-! SUPPORT. What the ring decoder's functions return: no read leaves the image, and each result in closed form. -/

namespace Sys2Proof.Machine

open Sys2Proof.Param Sys2Proof.Safety

theorem totalDiveCount_eq (m : Memory) :
    totalDiveCount m = .ok ((m.get 0x7F2).toNat * 256 + (m.get 0x7F3).toNat) := by
  rw [totalDiveCount, Memory.byteAt_ok _ (by decide), Memory.byteAt_ok _ (by decide)]
  rfl

theorem end_formula (lo hi : Byte) :
    (lo.toNat + (hi.toNat >>> 1) * 256) &&& 0x7FF = hi.toNat / 2 % 8 * 256 + lo.toNat := by
  rw [show 0x7FF = 2 ^ 11 - 1 from rfl, Nat.and_two_pow_sub_one_eq_mod, Nat.shiftRight_eq_div_pow]
  have := lo.isLt
  have := hi.isLt
  omega

theorem depthProfileEndIndex_eq (m : Memory) : depthProfileEndIndex m = .ok (endCursor m) := by
  rw [depthProfileEndIndex, Memory.byteAt_ok _ (by decide), Memory.byteAt_ok _ (by decide)]
  exact congrArg Except.ok (end_formula _ _)

theorem endCursor_lt (m : Memory) : endCursor m < 0x800 := by
  have := (m.get 0x7F6).isLt
  unfold endCursor; omega

theorem logbookStartIndex_eq (m : Memory) (n : Nat) :
    logbookStartIndex m n = .ok (0x600 + 12 * logbookSlot m n) := by
  rw [logbookStartIndex, Memory.byteAt_ok _ (by decide)]
  refine congrArg Except.ok ?_
  simp only [newestIndex, logSlots, logEntry, logRingLen, logBase, logbookSlot, addrCursor]
  omega

theorem logbookSlot_le (m : Memory) (n : Nat) : logbookSlot m n ≤ 36 := by unfold logbookSlot; omega

theorem isLogbookIndexValid_slot (m : Memory) (n : Nat) : isLogbookIndexValid (0x600 + 12 * logbookSlot m n) = true := by
  have := logbookSlot_le m n
  simp only [isLogbookIndexValid, logBase, logEnd, Bool.and_eq_true, decide_eq_true_eq]
  omega

/-! ## The backward scan -/

theorem behind_zero (m : Memory) (h : endCursor m < 0x600) : behind m 0 = endCursor m := by unfold behind; omega

theorem behind_lt (m : Memory) (d : Nat) : behind m d < 0x600 := Nat.mod_lt _ (by decide)

theorem prev_behind (m : Memory) {d : Nat} (h : d ≤ 0x5FF) : prev (behind m d) = behind m (d + 1) := by
  have := endCursor_lt m
  unfold prev behind
  simp only [profEnd, profBase]
  split <;> omega

theorem behind_eq_end (m : Memory) (h : endCursor m < 0x600) {d : Nat} (hd : d ≤ 0x5FF) :
    behind m (d + 1) = endCursor m ↔ d = 0x5FF := by unfold behind; omega

/-- One scan finds the nearest sentinel farther behind than `d`, and counts the bytes up to it. -/
theorem scanBack_eq (m : Memory) (h : endCursor m < 0x600) : ∀ (fuel d len : Nat), d ≤ 0x5FF → 0x600 - d ≤ fuel →
    scanBack m (endCursor m) fuel (behind m d) len =
      .ok (((List.range' (d + 1) (0x5FF - d)).find? fun d' => m.get (behind m d') == 0xFF).map
        fun d' => (behind m d', len + (d' - d)))
  | 0, d, len, hd, hf => by omega
  | fuel + 1, d, len, hd, hf => by
    rw [scanBack, prev_behind m hd]
    by_cases hlast : d = 0x5FF
    · rw [if_pos ((behind_eq_end m h hd).2 hlast)]
      simp [hlast]
    · rw [if_neg (fun he => hlast ((behind_eq_end m h hd).1 he)),
        Memory.byteAt_ok m (Nat.lt_trans (behind_lt m _) (by decide))]
      obtain ⟨k, hk⟩ : ∃ k, 0x5FF - d = k + 1 := ⟨0x5FF - d - 1, by omega⟩
      rw [hk, List.range'_succ, List.find?_cons]
      by_cases hs : m.get (behind m (d + 1)) = 0xFF
      · simp [hs, sentinel]
      · have hb : (m.get (behind m (d + 1)) == 0xFF) = false := by simpa using hs
        simp only [sentinel, if_neg hs, hb]
        rw [scanBack_eq m h fuel (d + 1) (len + 1) (by omega) (by omega), show 0x5FF - (d + 1) = k by omega]
        congr 1
        cases hfnd : (List.range' (d + 1 + 1) k).find? fun d' => m.get (behind m d') == 0xFF with
        | none => rfl
        | some x =>
          have hx := List.mem_range'_1.1 (List.mem_of_find?_eq_some hfnd)
          simp only [Option.map_some]
          congr 2
          omega

/-- The sentinels farther behind than `d`. -/
def sentinelsBeyond (m : Memory) (d : Nat) : List Nat :=
  (List.range' (d + 1) (0x5FF - d)).filter fun d' => m.get (behind m d') == 0xFF

theorem sentinelsBeyond_zero (m : Memory) (h : endCursor m < 0x600) : sentinelsBeyond m 0 = sentinelDistances m := by
  simp [sentinelsBeyond, sentinelDistances, h]

theorem filter_range'_tail (p : Nat → Bool) : ∀ (k a d : Nat) (rest : List Nat),
    (List.range' a k).filter p = d :: rest → a ≤ d ∧ d < a + k ∧ rest = (List.range' (d + 1) (a + k - (d + 1))).filter p
  | 0, a, d, rest, h => by simp at h
  | k + 1, a, d, rest, h => by
    rw [List.range'_succ, List.filter_cons] at h
    split at h
    · injection h with h1 h2
      subst h1 h2
      exact ⟨le_rfl, by omega, by congr 2; omega⟩
    · obtain ⟨h1, h2, h3⟩ := filter_range'_tail p k (a + 1) d rest h
      exact ⟨by omega, by omega, by rw [h3]; congr 2; omega⟩

theorem scanSegments_eq (m : Memory) (h : endCursor m < 0x600) : ∀ (n d : Nat), d ≤ 0x5FF →
    scanSegments m (endCursor m) n (behind m d) =
      .ok (((sentinelsBeyond m d)[n]?).map fun d' =>
        (behind m d', d' - if n = 0 then d else (sentinelsBeyond m d).getD (n - 1) 0))
  | 0, d, hd => by
    rw [scanSegments, scanBack_eq m h _ _ _ hd (by simp only [profEnd]; omega), ← List.head?_eq_getElem?, sentinelsBeyond,
      List.head?_filter]
    simp
  | n + 1, d, hd => by
    rw [scanSegments, scanBack_eq m h _ _ _ hd (by simp only [profEnd]; omega), ← List.head?_filter]
    cases hL : (List.range' (d + 1) (0x5FF - d)).filter fun d' => m.get (behind m d') == 0xFF with
    | nil => simp only [sentinelsBeyond, hL, List.head?_nil, Option.map_none, List.getElem?_nil]
    | cons d' rest =>
      obtain ⟨h1, h2, h3⟩ := filter_range'_tail _ _ _ _ _ hL
      have hrest : rest = sentinelsBeyond m d' := by rw [h3, sentinelsBeyond]; congr 2; omega
      simp only [List.head?_cons, Option.map_some]
      rw [scanSegments_eq m h n d' (by omega)]
      simp only [sentinelsBeyond] at hrest ⊢
      rw [hL, hrest]
      cases n <;> simp

/-- PROFFIND's function never reads outside the image and returns the segment of the dive. -/
theorem findDepthProfileStart_eq (m : Memory) (n : Nat) : findDepthProfileStart m n = .ok (profileSegment m n) := by
  rw [findDepthProfileStart, depthProfileEndIndex_eq]
  show (if endCursor m ≥ profEnd then Except.ok none else scanSegments m (endCursor m) n (endCursor m)) = _
  by_cases h : endCursor m < 0x600
  · rw [if_neg (by simp only [profEnd]; omega)]
    conv_lhs => rw [← behind_zero m h]
    rw [behind_zero m h]
    have := scanSegments_eq m h n 0 (by omega)
    rw [behind_zero m h] at this
    rw [this, sentinelsBeyond_zero m h]
    rfl
  · rw [if_pos (by simp only [profEnd]; omega)]
    simp [profileSegment, sentinelDistances, h]

theorem sentinelDistances_mem {m : Memory} {d : Nat} (h : d ∈ sentinelDistances m) :
    1 ≤ d ∧ d ≤ 0x5FF ∧ m.get (behind m d) = 0xFF ∧ endCursor m < 0x600 := by
  unfold sentinelDistances at h
  split at h
  · next he =>
    simp only [List.mem_filter, List.mem_range'_1, beq_iff_eq] at h
    exact ⟨h.1.1, by omega, h.2, he⟩
  · simp at h

theorem sentinelDistances_sorted (m : Memory) : (sentinelDistances m).Pairwise (· < ·) := by
  unfold sentinelDistances
  split
  · exact List.Pairwise.filter _ (List.pairwise_lt_range' (s := 1) (n := 0x5FF))
  · exact List.Pairwise.nil

/-- The end of a segment lies before its sentinel. -/
theorem segmentEnd_lt {m : Memory} {n d : Nat} (h : (sentinelDistances m)[n]? = some d) : segmentEnd m n < d := by
  obtain ⟨hn, rfl⟩ := List.getElem?_eq_some_iff.1 h
  unfold segmentEnd
  split
  · exact (sentinelDistances_mem (List.getElem_mem hn)).1
  · next h0 =>
    have hp := List.pairwise_iff_getElem.1 (sentinelDistances_sorted m) (n - 1) n (by omega) hn (by omega)
    rw [List.getD_eq_getElem?_getD, List.getElem?_eq_getElem (by omega)]
    exact hp

theorem segment_bounds {m : Memory} {n start len : Nat} (h : profileSegment m n = some (start, len)) :
    start < 0x600 ∧ 1 ≤ len ∧ len ≤ 0x5FF ∧ m.get start = 0xFF := by
  unfold profileSegment at h
  cases hd : (sentinelDistances m)[n]? with
  | none => simp [hd] at h
  | some d =>
    simp only [hd, Option.map_some, Option.some.injEq, Prod.mk.injEq] at h
    obtain ⟨rfl, rfl⟩ := h
    have h1 := segmentEnd_lt hd
    obtain ⟨hn, rfl⟩ := List.getElem?_eq_some_iff.1 hd
    have h2 := sentinelDistances_mem (List.getElem_mem hn)
    exact ⟨behind_lt m _, by omega, by omega, h2.2.2.1⟩

end Sys2Proof.Machine
end

