-- ==== Sys2Proof/Laws/State.lean ====
section
/-! SUPPORT. One lemma per field per update of the state. -/

namespace Sys2Proof.Machine

/-! ## `State.append` -/

@[simp] theorem State.append_cmd (s : State) (bs : List Byte) : (s.append bs).cmd = s.cmd := rfl
@[simp] theorem State.append_arg0 (s : State) (bs : List Byte) : (s.append bs).arg0 = s.arg0 := rfl
@[simp] theorem State.append_arg1 (s : State) (bs : List Byte) : (s.append bs).arg1 = s.arg1 := rfl
@[simp] theorem State.append_busy (s : State) (bs : List Byte) : (s.append bs).busy = s.busy := rfl
@[simp] theorem State.append_done (s : State) (bs : List Byte) : (s.append bs).done = s.done := rfl
@[simp] theorem State.append_flag (s : State) (bs : List Byte) : (s.append bs).flag = s.flag := rfl
@[simp] theorem State.append_err (s : State) (bs : List Byte) : (s.append bs).err = s.err := rfl
@[simp] theorem State.append_tstate (s : State) (bs : List Byte) : (s.append bs).tstate = s.tstate := rfl
@[simp] theorem State.append_res0 (s : State) (bs : List Byte) : (s.append bs).res0 = s.res0 := rfl
@[simp] theorem State.append_res1 (s : State) (bs : List Byte) : (s.append bs).res1 = s.res1 := rfl
@[simp] theorem State.append_errinfo (s : State) (bs : List Byte) : (s.append bs).errinfo = s.errinfo := rfl
@[simp] theorem State.append_dive (s : State) (bs : List Byte) : (s.append bs).dive = s.dive := rfl
@[simp] theorem State.append_sb (s : State) (bs : List Byte) : (s.append bs).sb = s.sb ++ bs := rfl
@[simp] theorem State.append_sbptr (s : State) (bs : List Byte) : (s.append bs).sbptr = s.sbptr := rfl
@[simp] theorem State.append_fb (s : State) (bs : List Byte) : (s.append bs).fb = s.fb := rfl
@[simp] theorem State.append_fbptr (s : State) (bs : List Byte) : (s.append bs).fbptr = s.fbptr := rfl
@[simp] theorem State.append_retry (s : State) (bs : List Byte) : (s.append bs).retry = s.retry := rfl
@[simp] theorem State.append_choff (s : State) (bs : List Byte) : (s.append bs).choff = s.choff := rfl
@[simp] theorem State.append_op (s : State) (bs : List Byte) : (s.append bs).op = s.op := rfl
@[simp] theorem State.append_t0 (s : State) (bs : List Byte) : (s.append bs).t0 = s.t0 := rfl
@[simp] theorem State.append_chcnt (s : State) (bs : List Byte) : (s.append bs).chcnt = s.chcnt := rfl
@[simp] theorem State.append_txpos (s : State) (bs : List Byte) : (s.append bs).txpos = s.txpos := rfl
@[simp] theorem State.append_sleeping (s : State) (bs : List Byte) : (s.append bs).sleeping = s.sleeping := rfl
@[simp] theorem State.append_count (s : State) (bs : List Byte) : (s.append bs).count = s.count := rfl
@[simp] theorem State.append_imageChanged (s : State) (bs : List Byte) : (s.append bs).imageChanged = s.imageChanged := rfl
@[simp] theorem State.append_img (s : State) (bs : List Byte) : (s.append bs).img = s.img := rfl
@[simp] theorem State.append_tx (s : State) (bs : List Byte) : (s.append bs).tx = s.tx := rfl
@[simp] theorem State.append_rx (s : State) (bs : List Byte) : (s.append bs).rx = s.rx := rfl
@[simp] theorem State.append_now (s : State) (bs : List Byte) : (s.append bs).now = s.now := rfl
@[simp] theorem State.append_txReady (s : State) (bs : List Byte) : (s.append bs).txReady = s.txReady := rfl
@[simp] theorem State.append_env (s : State) (bs : List Byte) : (s.append bs).env = s.env := rfl
@[simp] theorem State.append_hostOut (s : State) (bs : List Byte) : (s.append bs).hostOut = s.hostOut := rfl
@[simp] theorem State.append_freeCtr (s : State) (bs : List Byte) : (s.append bs).freeCtr = s.freeCtr := rfl

/-! ## `State.clearStaging` -/

@[simp] theorem State.clearStaging_cmd (s : State) : s.clearStaging.cmd = s.cmd := rfl
@[simp] theorem State.clearStaging_arg0 (s : State) : s.clearStaging.arg0 = s.arg0 := rfl
@[simp] theorem State.clearStaging_arg1 (s : State) : s.clearStaging.arg1 = s.arg1 := rfl
@[simp] theorem State.clearStaging_busy (s : State) : s.clearStaging.busy = s.busy := rfl
@[simp] theorem State.clearStaging_done (s : State) : s.clearStaging.done = s.done := rfl
@[simp] theorem State.clearStaging_flag (s : State) : s.clearStaging.flag = s.flag := rfl
@[simp] theorem State.clearStaging_err (s : State) : s.clearStaging.err = s.err := rfl
@[simp] theorem State.clearStaging_tstate (s : State) : s.clearStaging.tstate = s.tstate := rfl
@[simp] theorem State.clearStaging_res0 (s : State) : s.clearStaging.res0 = s.res0 := rfl
@[simp] theorem State.clearStaging_res1 (s : State) : s.clearStaging.res1 = s.res1 := rfl
@[simp] theorem State.clearStaging_errinfo (s : State) : s.clearStaging.errinfo = s.errinfo := rfl
@[simp] theorem State.clearStaging_dive (s : State) : s.clearStaging.dive = s.dive := rfl
@[simp] theorem State.clearStaging_sb (s : State) : s.clearStaging.sb = [] := rfl
@[simp] theorem State.clearStaging_sbptr (s : State) : s.clearStaging.sbptr = 0 := rfl
@[simp] theorem State.clearStaging_fb (s : State) : s.clearStaging.fb = s.fb := rfl
@[simp] theorem State.clearStaging_fbptr (s : State) : s.clearStaging.fbptr = s.fbptr := rfl
@[simp] theorem State.clearStaging_retry (s : State) : s.clearStaging.retry = s.retry := rfl
@[simp] theorem State.clearStaging_choff (s : State) : s.clearStaging.choff = s.choff := rfl
@[simp] theorem State.clearStaging_op (s : State) : s.clearStaging.op = s.op := rfl
@[simp] theorem State.clearStaging_t0 (s : State) : s.clearStaging.t0 = s.t0 := rfl
@[simp] theorem State.clearStaging_chcnt (s : State) : s.clearStaging.chcnt = s.chcnt := rfl
@[simp] theorem State.clearStaging_txpos (s : State) : s.clearStaging.txpos = s.txpos := rfl
@[simp] theorem State.clearStaging_sleeping (s : State) : s.clearStaging.sleeping = s.sleeping := rfl
@[simp] theorem State.clearStaging_count (s : State) : s.clearStaging.count = s.count := rfl
@[simp] theorem State.clearStaging_imageChanged (s : State) : s.clearStaging.imageChanged = s.imageChanged := rfl
@[simp] theorem State.clearStaging_img (s : State) : s.clearStaging.img = s.img := rfl
@[simp] theorem State.clearStaging_tx (s : State) : s.clearStaging.tx = s.tx := rfl
@[simp] theorem State.clearStaging_rx (s : State) : s.clearStaging.rx = s.rx := rfl
@[simp] theorem State.clearStaging_now (s : State) : s.clearStaging.now = s.now := rfl
@[simp] theorem State.clearStaging_txReady (s : State) : s.clearStaging.txReady = s.txReady := rfl
@[simp] theorem State.clearStaging_env (s : State) : s.clearStaging.env = s.env := rfl
@[simp] theorem State.clearStaging_hostOut (s : State) : s.clearStaging.hostOut = s.hostOut := rfl
@[simp] theorem State.clearStaging_freeCtr (s : State) : s.clearStaging.freeCtr = s.freeCtr := rfl

/-! ## `State.accept` -/

@[simp] theorem State.accept_cmd (s : State) (v : Half) : (s.accept v).cmd = v := rfl
@[simp] theorem State.accept_arg0 (s : State) (v : Half) : (s.accept v).arg0 = s.arg0 := rfl
@[simp] theorem State.accept_arg1 (s : State) (v : Half) : (s.accept v).arg1 = s.arg1 := rfl
@[simp] theorem State.accept_busy (s : State) (v : Half) : (s.accept v).busy = true := rfl
@[simp] theorem State.accept_done (s : State) (v : Half) : (s.accept v).done = false := rfl
@[simp] theorem State.accept_flag (s : State) (v : Half) : (s.accept v).flag = false := rfl
@[simp] theorem State.accept_err (s : State) (v : Half) : (s.accept v).err = .noError := rfl
@[simp] theorem State.accept_tstate (s : State) (v : Half) : (s.accept v).tstate = s.tstate := rfl
@[simp] theorem State.accept_res0 (s : State) (v : Half) : (s.accept v).res0 = s.res0 := rfl
@[simp] theorem State.accept_res1 (s : State) (v : Half) : (s.accept v).res1 = s.res1 := rfl
@[simp] theorem State.accept_errinfo (s : State) (v : Half) : (s.accept v).errinfo = s.errinfo := rfl
@[simp] theorem State.accept_dive (s : State) (v : Half) : (s.accept v).dive = s.dive := rfl
@[simp] theorem State.accept_sb (s : State) (v : Half) : (s.accept v).sb = s.sb := rfl
@[simp] theorem State.accept_sbptr (s : State) (v : Half) : (s.accept v).sbptr = s.sbptr := rfl
@[simp] theorem State.accept_fb (s : State) (v : Half) : (s.accept v).fb = s.fb := rfl
@[simp] theorem State.accept_fbptr (s : State) (v : Half) : (s.accept v).fbptr = s.fbptr := rfl
@[simp] theorem State.accept_retry (s : State) (v : Half) : (s.accept v).retry = s.retry := rfl
@[simp] theorem State.accept_choff (s : State) (v : Half) : (s.accept v).choff = s.choff := rfl
@[simp] theorem State.accept_op (s : State) (v : Half) : (s.accept v).op = opcodeField v := rfl
@[simp] theorem State.accept_t0 (s : State) (v : Half) : (s.accept v).t0 = s.t0 := rfl
@[simp] theorem State.accept_chcnt (s : State) (v : Half) : (s.accept v).chcnt = s.chcnt := rfl
@[simp] theorem State.accept_txpos (s : State) (v : Half) : (s.accept v).txpos = s.txpos := rfl
@[simp] theorem State.accept_sleeping (s : State) (v : Half) : (s.accept v).sleeping = s.sleeping := rfl
@[simp] theorem State.accept_count (s : State) (v : Half) : (s.accept v).count = s.count := rfl
@[simp] theorem State.accept_imageChanged (s : State) (v : Half) : (s.accept v).imageChanged = s.imageChanged := rfl
@[simp] theorem State.accept_img (s : State) (v : Half) : (s.accept v).img = s.img := rfl
@[simp] theorem State.accept_tx (s : State) (v : Half) : (s.accept v).tx = s.tx := rfl
@[simp] theorem State.accept_rx (s : State) (v : Half) : (s.accept v).rx = s.rx := rfl
@[simp] theorem State.accept_now (s : State) (v : Half) : (s.accept v).now = s.now := rfl
@[simp] theorem State.accept_txReady (s : State) (v : Half) : (s.accept v).txReady = s.txReady := rfl
@[simp] theorem State.accept_env (s : State) (v : Half) : (s.accept v).env = s.env := rfl
@[simp] theorem State.accept_hostOut (s : State) (v : Half) : (s.accept v).hostOut = s.hostOut := rfl
@[simp] theorem State.accept_freeCtr (s : State) (v : Half) : (s.accept v).freeCtr = s.freeCtr := rfl

/-! ## `State.results` -/

@[simp] theorem State.results_cmd (s : State) (r0 r1 : Half) (f : Bool) : (s.results r0 r1 f).cmd = s.cmd := rfl
@[simp] theorem State.results_arg0 (s : State) (r0 r1 : Half) (f : Bool) : (s.results r0 r1 f).arg0 = s.arg0 := rfl
@[simp] theorem State.results_arg1 (s : State) (r0 r1 : Half) (f : Bool) : (s.results r0 r1 f).arg1 = s.arg1 := rfl
@[simp] theorem State.results_busy (s : State) (r0 r1 : Half) (f : Bool) : (s.results r0 r1 f).busy = s.busy := rfl
@[simp] theorem State.results_done (s : State) (r0 r1 : Half) (f : Bool) : (s.results r0 r1 f).done = s.done := rfl
@[simp] theorem State.results_flag (s : State) (r0 r1 : Half) (f : Bool) : (s.results r0 r1 f).flag = f := rfl
@[simp] theorem State.results_err (s : State) (r0 r1 : Half) (f : Bool) : (s.results r0 r1 f).err = s.err := rfl
@[simp] theorem State.results_tstate (s : State) (r0 r1 : Half) (f : Bool) : (s.results r0 r1 f).tstate = s.tstate := rfl
@[simp] theorem State.results_res0 (s : State) (r0 r1 : Half) (f : Bool) : (s.results r0 r1 f).res0 = r0 := rfl
@[simp] theorem State.results_res1 (s : State) (r0 r1 : Half) (f : Bool) : (s.results r0 r1 f).res1 = r1 := rfl
@[simp] theorem State.results_errinfo (s : State) (r0 r1 : Half) (f : Bool) : (s.results r0 r1 f).errinfo = s.errinfo := rfl
@[simp] theorem State.results_dive (s : State) (r0 r1 : Half) (f : Bool) : (s.results r0 r1 f).dive = s.dive := rfl
@[simp] theorem State.results_sb (s : State) (r0 r1 : Half) (f : Bool) : (s.results r0 r1 f).sb = s.sb := rfl
@[simp] theorem State.results_sbptr (s : State) (r0 r1 : Half) (f : Bool) : (s.results r0 r1 f).sbptr = s.sbptr := rfl
@[simp] theorem State.results_fb (s : State) (r0 r1 : Half) (f : Bool) : (s.results r0 r1 f).fb = s.fb := rfl
@[simp] theorem State.results_fbptr (s : State) (r0 r1 : Half) (f : Bool) : (s.results r0 r1 f).fbptr = s.fbptr := rfl
@[simp] theorem State.results_retry (s : State) (r0 r1 : Half) (f : Bool) : (s.results r0 r1 f).retry = s.retry := rfl
@[simp] theorem State.results_choff (s : State) (r0 r1 : Half) (f : Bool) : (s.results r0 r1 f).choff = s.choff := rfl
@[simp] theorem State.results_op (s : State) (r0 r1 : Half) (f : Bool) : (s.results r0 r1 f).op = s.op := rfl
@[simp] theorem State.results_t0 (s : State) (r0 r1 : Half) (f : Bool) : (s.results r0 r1 f).t0 = s.t0 := rfl
@[simp] theorem State.results_chcnt (s : State) (r0 r1 : Half) (f : Bool) : (s.results r0 r1 f).chcnt = s.chcnt := rfl
@[simp] theorem State.results_txpos (s : State) (r0 r1 : Half) (f : Bool) : (s.results r0 r1 f).txpos = s.txpos := rfl
@[simp] theorem State.results_sleeping (s : State) (r0 r1 : Half) (f : Bool) : (s.results r0 r1 f).sleeping = s.sleeping := rfl
@[simp] theorem State.results_count (s : State) (r0 r1 : Half) (f : Bool) : (s.results r0 r1 f).count = s.count := rfl
@[simp] theorem State.results_imageChanged (s : State) (r0 r1 : Half) (f : Bool) : (s.results r0 r1 f).imageChanged = s.imageChanged := rfl
@[simp] theorem State.results_img (s : State) (r0 r1 : Half) (f : Bool) : (s.results r0 r1 f).img = s.img := rfl
@[simp] theorem State.results_tx (s : State) (r0 r1 : Half) (f : Bool) : (s.results r0 r1 f).tx = s.tx := rfl
@[simp] theorem State.results_rx (s : State) (r0 r1 : Half) (f : Bool) : (s.results r0 r1 f).rx = s.rx := rfl
@[simp] theorem State.results_now (s : State) (r0 r1 : Half) (f : Bool) : (s.results r0 r1 f).now = s.now := rfl
@[simp] theorem State.results_txReady (s : State) (r0 r1 : Half) (f : Bool) : (s.results r0 r1 f).txReady = s.txReady := rfl
@[simp] theorem State.results_env (s : State) (r0 r1 : Half) (f : Bool) : (s.results r0 r1 f).env = s.env := rfl
@[simp] theorem State.results_hostOut (s : State) (r0 r1 : Half) (f : Bool) : (s.results r0 r1 f).hostOut = s.hostOut := rfl
@[simp] theorem State.results_freeCtr (s : State) (r0 r1 : Half) (f : Bool) : (s.results r0 r1 f).freeCtr = s.freeCtr := rfl

/-! ## `State.complete` -/

@[simp] theorem State.complete_cmd (s : State) (e : ErrCode) (i : BitVec 4) : (s.complete e i).cmd = s.cmd := rfl
@[simp] theorem State.complete_arg0 (s : State) (e : ErrCode) (i : BitVec 4) : (s.complete e i).arg0 = s.arg0 := rfl
@[simp] theorem State.complete_arg1 (s : State) (e : ErrCode) (i : BitVec 4) : (s.complete e i).arg1 = s.arg1 := rfl
@[simp] theorem State.complete_busy (s : State) (e : ErrCode) (i : BitVec 4) : (s.complete e i).busy = false := rfl
@[simp] theorem State.complete_done (s : State) (e : ErrCode) (i : BitVec 4) : (s.complete e i).done = true := rfl
@[simp] theorem State.complete_flag (s : State) (e : ErrCode) (i : BitVec 4) : (s.complete e i).flag = s.flag := rfl
@[simp] theorem State.complete_err (s : State) (e : ErrCode) (i : BitVec 4) : (s.complete e i).err = e := rfl
@[simp] theorem State.complete_tstate (s : State) (e : ErrCode) (i : BitVec 4) : (s.complete e i).tstate = s.tstate := rfl
@[simp] theorem State.complete_res0 (s : State) (e : ErrCode) (i : BitVec 4) : (s.complete e i).res0 = s.res0 := rfl
@[simp] theorem State.complete_res1 (s : State) (e : ErrCode) (i : BitVec 4) : (s.complete e i).res1 = s.res1 := rfl
@[simp] theorem State.complete_errinfo (s : State) (e : ErrCode) (i : BitVec 4) : (s.complete e i).errinfo = i := rfl
@[simp] theorem State.complete_dive (s : State) (e : ErrCode) (i : BitVec 4) : (s.complete e i).dive = s.dive := rfl
@[simp] theorem State.complete_sb (s : State) (e : ErrCode) (i : BitVec 4) : (s.complete e i).sb = s.sb := rfl
@[simp] theorem State.complete_sbptr (s : State) (e : ErrCode) (i : BitVec 4) : (s.complete e i).sbptr = s.sbptr := rfl
@[simp] theorem State.complete_fb (s : State) (e : ErrCode) (i : BitVec 4) : (s.complete e i).fb = s.fb := rfl
@[simp] theorem State.complete_fbptr (s : State) (e : ErrCode) (i : BitVec 4) : (s.complete e i).fbptr = s.fbptr := rfl
@[simp] theorem State.complete_retry (s : State) (e : ErrCode) (i : BitVec 4) : (s.complete e i).retry = s.retry := rfl
@[simp] theorem State.complete_choff (s : State) (e : ErrCode) (i : BitVec 4) : (s.complete e i).choff = s.choff := rfl
@[simp] theorem State.complete_op (s : State) (e : ErrCode) (i : BitVec 4) : (s.complete e i).op = s.op := rfl
@[simp] theorem State.complete_t0 (s : State) (e : ErrCode) (i : BitVec 4) : (s.complete e i).t0 = s.t0 := rfl
@[simp] theorem State.complete_chcnt (s : State) (e : ErrCode) (i : BitVec 4) : (s.complete e i).chcnt = s.chcnt := rfl
@[simp] theorem State.complete_txpos (s : State) (e : ErrCode) (i : BitVec 4) : (s.complete e i).txpos = s.txpos := rfl
@[simp] theorem State.complete_sleeping (s : State) (e : ErrCode) (i : BitVec 4) : (s.complete e i).sleeping = s.sleeping := rfl
@[simp] theorem State.complete_count (s : State) (e : ErrCode) (i : BitVec 4) : (s.complete e i).count = s.count := rfl
@[simp] theorem State.complete_imageChanged (s : State) (e : ErrCode) (i : BitVec 4) : (s.complete e i).imageChanged = s.imageChanged := rfl
@[simp] theorem State.complete_img (s : State) (e : ErrCode) (i : BitVec 4) : (s.complete e i).img = s.img := rfl
@[simp] theorem State.complete_tx (s : State) (e : ErrCode) (i : BitVec 4) : (s.complete e i).tx = s.tx := rfl
@[simp] theorem State.complete_rx (s : State) (e : ErrCode) (i : BitVec 4) : (s.complete e i).rx = s.rx := rfl
@[simp] theorem State.complete_now (s : State) (e : ErrCode) (i : BitVec 4) : (s.complete e i).now = s.now := rfl
@[simp] theorem State.complete_txReady (s : State) (e : ErrCode) (i : BitVec 4) : (s.complete e i).txReady = s.txReady := rfl
@[simp] theorem State.complete_env (s : State) (e : ErrCode) (i : BitVec 4) : (s.complete e i).env = s.env := rfl
@[simp] theorem State.complete_hostOut (s : State) (e : ErrCode) (i : BitVec 4) : (s.complete e i).hostOut = s.hostOut := rfl
@[simp] theorem State.complete_freeCtr (s : State) (e : ErrCode) (i : BitVec 4) : (s.complete e i).freeCtr = s.freeCtr := rfl

/-! ## `State.drawn` -/

@[simp] theorem State.drawn_cmd (s : State) (k : Nat) : (s.drawn k).cmd = s.cmd := rfl
@[simp] theorem State.drawn_arg0 (s : State) (k : Nat) : (s.drawn k).arg0 = s.arg0 := rfl
@[simp] theorem State.drawn_arg1 (s : State) (k : Nat) : (s.drawn k).arg1 = s.arg1 := rfl
@[simp] theorem State.drawn_busy (s : State) (k : Nat) : (s.drawn k).busy = s.busy := rfl
@[simp] theorem State.drawn_done (s : State) (k : Nat) : (s.drawn k).done = s.done := rfl
@[simp] theorem State.drawn_flag (s : State) (k : Nat) : (s.drawn k).flag = s.flag := rfl
@[simp] theorem State.drawn_err (s : State) (k : Nat) : (s.drawn k).err = s.err := rfl
@[simp] theorem State.drawn_tstate (s : State) (k : Nat) : (s.drawn k).tstate = s.tstate := rfl
@[simp] theorem State.drawn_res0 (s : State) (k : Nat) : (s.drawn k).res0 = s.res0 := rfl
@[simp] theorem State.drawn_res1 (s : State) (k : Nat) : (s.drawn k).res1 = s.res1 := rfl
@[simp] theorem State.drawn_errinfo (s : State) (k : Nat) : (s.drawn k).errinfo = s.errinfo := rfl
@[simp] theorem State.drawn_dive (s : State) (k : Nat) : (s.drawn k).dive = s.dive := rfl
@[simp] theorem State.drawn_sb (s : State) (k : Nat) : (s.drawn k).sb = s.sb := rfl
@[simp] theorem State.drawn_sbptr (s : State) (k : Nat) : (s.drawn k).sbptr = s.sbptr := rfl
@[simp] theorem State.drawn_fb (s : State) (k : Nat) : (s.drawn k).fb = s.fb := rfl
@[simp] theorem State.drawn_fbptr (s : State) (k : Nat) : (s.drawn k).fbptr = s.fbptr := rfl
@[simp] theorem State.drawn_retry (s : State) (k : Nat) : (s.drawn k).retry = s.retry := rfl
@[simp] theorem State.drawn_choff (s : State) (k : Nat) : (s.drawn k).choff = s.choff := rfl
@[simp] theorem State.drawn_op (s : State) (k : Nat) : (s.drawn k).op = s.op := rfl
@[simp] theorem State.drawn_t0 (s : State) (k : Nat) : (s.drawn k).t0 = s.t0 := rfl
@[simp] theorem State.drawn_chcnt (s : State) (k : Nat) : (s.drawn k).chcnt = s.chcnt := rfl
@[simp] theorem State.drawn_txpos (s : State) (k : Nat) : (s.drawn k).txpos = s.txpos := rfl
@[simp] theorem State.drawn_sleeping (s : State) (k : Nat) : (s.drawn k).sleeping = s.sleeping := rfl
@[simp] theorem State.drawn_count (s : State) (k : Nat) : (s.drawn k).count = s.count := rfl
@[simp] theorem State.drawn_imageChanged (s : State) (k : Nat) : (s.drawn k).imageChanged = s.imageChanged := rfl
@[simp] theorem State.drawn_img (s : State) (k : Nat) : (s.drawn k).img = s.img := rfl
@[simp] theorem State.drawn_tx (s : State) (k : Nat) : (s.drawn k).tx = s.tx := rfl
@[simp] theorem State.drawn_rx (s : State) (k : Nat) : (s.drawn k).rx = s.rx := rfl
@[simp] theorem State.drawn_now (s : State) (k : Nat) : (s.drawn k).now = s.now := rfl
@[simp] theorem State.drawn_txReady (s : State) (k : Nat) : (s.drawn k).txReady = s.txReady := rfl
@[simp] theorem State.drawn_env (s : State) (k : Nat) : (s.drawn k).env = s.env := rfl
@[simp] theorem State.drawn_hostOut (s : State) (k : Nat) : (s.drawn k).hostOut = s.hostOut := rfl
@[simp] theorem State.drawn_freeCtr (s : State) (k : Nat) : (s.drawn k).freeCtr = s.freeCtr + k := rfl

/-! ## `State.appendFree` -/

@[simp] theorem State.appendFree_cmd (s : State) (n : Nat) : (s.appendFree n).cmd = s.cmd := rfl
@[simp] theorem State.appendFree_arg0 (s : State) (n : Nat) : (s.appendFree n).arg0 = s.arg0 := rfl
@[simp] theorem State.appendFree_arg1 (s : State) (n : Nat) : (s.appendFree n).arg1 = s.arg1 := rfl
@[simp] theorem State.appendFree_busy (s : State) (n : Nat) : (s.appendFree n).busy = s.busy := rfl
@[simp] theorem State.appendFree_done (s : State) (n : Nat) : (s.appendFree n).done = s.done := rfl
@[simp] theorem State.appendFree_flag (s : State) (n : Nat) : (s.appendFree n).flag = s.flag := rfl
@[simp] theorem State.appendFree_err (s : State) (n : Nat) : (s.appendFree n).err = s.err := rfl
@[simp] theorem State.appendFree_tstate (s : State) (n : Nat) : (s.appendFree n).tstate = s.tstate := rfl
@[simp] theorem State.appendFree_res0 (s : State) (n : Nat) : (s.appendFree n).res0 = s.res0 := rfl
@[simp] theorem State.appendFree_res1 (s : State) (n : Nat) : (s.appendFree n).res1 = s.res1 := rfl
@[simp] theorem State.appendFree_errinfo (s : State) (n : Nat) : (s.appendFree n).errinfo = s.errinfo := rfl
@[simp] theorem State.appendFree_dive (s : State) (n : Nat) : (s.appendFree n).dive = s.dive := rfl
@[simp] theorem State.appendFree_sb (s : State) (n : Nat) : (s.appendFree n).sb = s.sb ++ s.freeBytes n := rfl
@[simp] theorem State.appendFree_sbptr (s : State) (n : Nat) : (s.appendFree n).sbptr = s.sbptr := rfl
@[simp] theorem State.appendFree_fb (s : State) (n : Nat) : (s.appendFree n).fb = s.fb := rfl
@[simp] theorem State.appendFree_fbptr (s : State) (n : Nat) : (s.appendFree n).fbptr = s.fbptr := rfl
@[simp] theorem State.appendFree_retry (s : State) (n : Nat) : (s.appendFree n).retry = s.retry := rfl
@[simp] theorem State.appendFree_choff (s : State) (n : Nat) : (s.appendFree n).choff = s.choff := rfl
@[simp] theorem State.appendFree_op (s : State) (n : Nat) : (s.appendFree n).op = s.op := rfl
@[simp] theorem State.appendFree_t0 (s : State) (n : Nat) : (s.appendFree n).t0 = s.t0 := rfl
@[simp] theorem State.appendFree_chcnt (s : State) (n : Nat) : (s.appendFree n).chcnt = s.chcnt := rfl
@[simp] theorem State.appendFree_txpos (s : State) (n : Nat) : (s.appendFree n).txpos = s.txpos := rfl
@[simp] theorem State.appendFree_sleeping (s : State) (n : Nat) : (s.appendFree n).sleeping = s.sleeping := rfl
@[simp] theorem State.appendFree_count (s : State) (n : Nat) : (s.appendFree n).count = s.count := rfl
@[simp] theorem State.appendFree_imageChanged (s : State) (n : Nat) : (s.appendFree n).imageChanged = s.imageChanged := rfl
@[simp] theorem State.appendFree_img (s : State) (n : Nat) : (s.appendFree n).img = s.img := rfl
@[simp] theorem State.appendFree_tx (s : State) (n : Nat) : (s.appendFree n).tx = s.tx := rfl
@[simp] theorem State.appendFree_rx (s : State) (n : Nat) : (s.appendFree n).rx = s.rx := rfl
@[simp] theorem State.appendFree_now (s : State) (n : Nat) : (s.appendFree n).now = s.now := rfl
@[simp] theorem State.appendFree_txReady (s : State) (n : Nat) : (s.appendFree n).txReady = s.txReady := rfl
@[simp] theorem State.appendFree_env (s : State) (n : Nat) : (s.appendFree n).env = s.env := rfl
@[simp] theorem State.appendFree_hostOut (s : State) (n : Nat) : (s.appendFree n).hostOut = s.hostOut := rfl
@[simp] theorem State.appendFree_freeCtr (s : State) (n : Nat) : (s.appendFree n).freeCtr = s.freeCtr + n := rfl

/-! ## `State.buildChunk` -/

@[simp] theorem State.buildChunk_cmd (s : State) : s.buildChunk.cmd = s.cmd := rfl
@[simp] theorem State.buildChunk_arg0 (s : State) : s.buildChunk.arg0 = s.arg0 := rfl
@[simp] theorem State.buildChunk_arg1 (s : State) : s.buildChunk.arg1 = s.arg1 := rfl
@[simp] theorem State.buildChunk_busy (s : State) : s.buildChunk.busy = s.busy := rfl
@[simp] theorem State.buildChunk_done (s : State) : s.buildChunk.done = s.done := rfl
@[simp] theorem State.buildChunk_flag (s : State) : s.buildChunk.flag = s.flag := rfl
@[simp] theorem State.buildChunk_err (s : State) : s.buildChunk.err = s.err := rfl
@[simp] theorem State.buildChunk_tstate (s : State) : s.buildChunk.tstate = s.tstate := rfl
@[simp] theorem State.buildChunk_res0 (s : State) : s.buildChunk.res0 = s.res0 := rfl
@[simp] theorem State.buildChunk_res1 (s : State) : s.buildChunk.res1 = s.res1 := rfl
@[simp] theorem State.buildChunk_errinfo (s : State) : s.buildChunk.errinfo = s.errinfo := rfl
@[simp] theorem State.buildChunk_dive (s : State) : s.buildChunk.dive = s.dive := rfl
@[simp] theorem State.buildChunk_sb (s : State) : s.buildChunk.sb = s.sb := rfl
@[simp] theorem State.buildChunk_sbptr (s : State) : s.buildChunk.sbptr = s.sbptr := rfl
@[simp] theorem State.buildChunk_fb (s : State) : s.buildChunk.fb = chunkPacket (chunkPayload s.sb s.choff.toNat) := rfl
@[simp] theorem State.buildChunk_fbptr (s : State) : s.buildChunk.fbptr = s.fbptr := rfl
@[simp] theorem State.buildChunk_retry (s : State) : s.buildChunk.retry = s.retry := rfl
@[simp] theorem State.buildChunk_choff (s : State) : s.buildChunk.choff = s.choff := rfl
@[simp] theorem State.buildChunk_op (s : State) : s.buildChunk.op = s.op := rfl
@[simp] theorem State.buildChunk_t0 (s : State) : s.buildChunk.t0 = s.t0 := rfl
@[simp] theorem State.buildChunk_chcnt (s : State) : s.buildChunk.chcnt = s.chcnt := rfl
@[simp] theorem State.buildChunk_txpos (s : State) : s.buildChunk.txpos = s.txpos := rfl
@[simp] theorem State.buildChunk_sleeping (s : State) : s.buildChunk.sleeping = s.sleeping := rfl
@[simp] theorem State.buildChunk_count (s : State) : s.buildChunk.count = s.count := rfl
@[simp] theorem State.buildChunk_imageChanged (s : State) : s.buildChunk.imageChanged = s.imageChanged := rfl
@[simp] theorem State.buildChunk_img (s : State) : s.buildChunk.img = s.img := rfl
@[simp] theorem State.buildChunk_tx (s : State) : s.buildChunk.tx = s.tx := rfl
@[simp] theorem State.buildChunk_rx (s : State) : s.buildChunk.rx = s.rx := rfl
@[simp] theorem State.buildChunk_now (s : State) : s.buildChunk.now = s.now := rfl
@[simp] theorem State.buildChunk_txReady (s : State) : s.buildChunk.txReady = s.txReady := rfl
@[simp] theorem State.buildChunk_env (s : State) : s.buildChunk.env = s.env := rfl
@[simp] theorem State.buildChunk_hostOut (s : State) : s.buildChunk.hostOut = s.hostOut := rfl
@[simp] theorem State.buildChunk_freeCtr (s : State) : s.buildChunk.freeCtr = s.freeCtr := rfl

/-! ## `State.startSending` -/

@[simp] theorem State.startSending_cmd (s : State) : s.startSending.cmd = s.cmd := rfl
@[simp] theorem State.startSending_arg0 (s : State) : s.startSending.arg0 = s.arg0 := rfl
@[simp] theorem State.startSending_arg1 (s : State) : s.startSending.arg1 = s.arg1 := rfl
@[simp] theorem State.startSending_busy (s : State) : s.startSending.busy = s.busy := rfl
@[simp] theorem State.startSending_done (s : State) : s.startSending.done = s.done := rfl
@[simp] theorem State.startSending_flag (s : State) : s.startSending.flag = s.flag := rfl
@[simp] theorem State.startSending_err (s : State) : s.startSending.err = s.err := rfl
@[simp] theorem State.startSending_tstate (s : State) : s.startSending.tstate = .sending := rfl
@[simp] theorem State.startSending_res0 (s : State) : s.startSending.res0 = s.res0 := rfl
@[simp] theorem State.startSending_res1 (s : State) : s.startSending.res1 = s.res1 := rfl
@[simp] theorem State.startSending_errinfo (s : State) : s.startSending.errinfo = s.errinfo := rfl
@[simp] theorem State.startSending_dive (s : State) : s.startSending.dive = s.dive := rfl
@[simp] theorem State.startSending_sb (s : State) : s.startSending.sb = s.sb := rfl
@[simp] theorem State.startSending_sbptr (s : State) : s.startSending.sbptr = s.sbptr := rfl
@[simp] theorem State.startSending_fb (s : State) : s.startSending.fb = s.fb := rfl
@[simp] theorem State.startSending_fbptr (s : State) : s.startSending.fbptr = s.fbptr := rfl
@[simp] theorem State.startSending_retry (s : State) : s.startSending.retry = s.retry := rfl
@[simp] theorem State.startSending_choff (s : State) : s.startSending.choff = s.choff := rfl
@[simp] theorem State.startSending_op (s : State) : s.startSending.op = s.op := rfl
@[simp] theorem State.startSending_t0 (s : State) : s.startSending.t0 = s.t0 := rfl
@[simp] theorem State.startSending_chcnt (s : State) : s.startSending.chcnt = s.chcnt := rfl
@[simp] theorem State.startSending_txpos (s : State) : s.startSending.txpos = 0 := rfl
@[simp] theorem State.startSending_sleeping (s : State) : s.startSending.sleeping = none := rfl
@[simp] theorem State.startSending_count (s : State) : s.startSending.count = s.count := rfl
@[simp] theorem State.startSending_imageChanged (s : State) : s.startSending.imageChanged = s.imageChanged := rfl
@[simp] theorem State.startSending_img (s : State) : s.startSending.img = s.img := rfl
@[simp] theorem State.startSending_tx (s : State) : s.startSending.tx = s.tx := rfl
@[simp] theorem State.startSending_rx (s : State) : s.startSending.rx = s.rx := rfl
@[simp] theorem State.startSending_now (s : State) : s.startSending.now = s.now := rfl
@[simp] theorem State.startSending_txReady (s : State) : s.startSending.txReady = s.txReady := rfl
@[simp] theorem State.startSending_env (s : State) : s.startSending.env = s.env := rfl
@[simp] theorem State.startSending_hostOut (s : State) : s.startSending.hostOut = s.hostOut := rfl
@[simp] theorem State.startSending_freeCtr (s : State) : s.startSending.freeCtr = s.freeCtr := rfl

/-! ## `State.enterWait` -/

@[simp] theorem State.enterWait_cmd (s : State) : s.enterWait.cmd = s.cmd := rfl
@[simp] theorem State.enterWait_arg0 (s : State) : s.enterWait.arg0 = s.arg0 := rfl
@[simp] theorem State.enterWait_arg1 (s : State) : s.enterWait.arg1 = s.arg1 := rfl
@[simp] theorem State.enterWait_busy (s : State) : s.enterWait.busy = s.busy := rfl
@[simp] theorem State.enterWait_done (s : State) : s.enterWait.done = s.done := rfl
@[simp] theorem State.enterWait_flag (s : State) : s.enterWait.flag = s.flag := rfl
@[simp] theorem State.enterWait_err (s : State) : s.enterWait.err = s.err := rfl
@[simp] theorem State.enterWait_tstate (s : State) : s.enterWait.tstate = .awaitingAck := rfl
@[simp] theorem State.enterWait_res0 (s : State) : s.enterWait.res0 = s.res0 := rfl
@[simp] theorem State.enterWait_res1 (s : State) : s.enterWait.res1 = s.res1 := rfl
@[simp] theorem State.enterWait_errinfo (s : State) : s.enterWait.errinfo = s.errinfo := rfl
@[simp] theorem State.enterWait_dive (s : State) : s.enterWait.dive = s.dive := rfl
@[simp] theorem State.enterWait_sb (s : State) : s.enterWait.sb = s.sb := rfl
@[simp] theorem State.enterWait_sbptr (s : State) : s.enterWait.sbptr = s.sbptr := rfl
@[simp] theorem State.enterWait_fb (s : State) : s.enterWait.fb = s.fb := rfl
@[simp] theorem State.enterWait_fbptr (s : State) : s.enterWait.fbptr = s.fbptr := rfl
@[simp] theorem State.enterWait_retry (s : State) : s.enterWait.retry = s.retry := rfl
@[simp] theorem State.enterWait_choff (s : State) : s.enterWait.choff = s.choff := rfl
@[simp] theorem State.enterWait_op (s : State) : s.enterWait.op = s.op := rfl
@[simp] theorem State.enterWait_t0 (s : State) : s.enterWait.t0 = s.now := rfl
@[simp] theorem State.enterWait_chcnt (s : State) : s.enterWait.chcnt = s.chcnt := rfl
@[simp] theorem State.enterWait_txpos (s : State) : s.enterWait.txpos = 0 := rfl
@[simp] theorem State.enterWait_sleeping (s : State) : s.enterWait.sleeping = none := rfl
@[simp] theorem State.enterWait_count (s : State) : s.enterWait.count = s.count := rfl
@[simp] theorem State.enterWait_imageChanged (s : State) : s.enterWait.imageChanged = s.imageChanged := rfl
@[simp] theorem State.enterWait_img (s : State) : s.enterWait.img = s.img := rfl
@[simp] theorem State.enterWait_tx (s : State) : s.enterWait.tx = s.tx := rfl
@[simp] theorem State.enterWait_rx (s : State) : s.enterWait.rx = s.rx := rfl
@[simp] theorem State.enterWait_now (s : State) : s.enterWait.now = s.now := rfl
@[simp] theorem State.enterWait_txReady (s : State) : s.enterWait.txReady = s.txReady := rfl
@[simp] theorem State.enterWait_env (s : State) : s.enterWait.env = s.env := rfl
@[simp] theorem State.enterWait_hostOut (s : State) : s.enterWait.hostOut = s.hostOut := rfl
@[simp] theorem State.enterWait_freeCtr (s : State) : s.enterWait.freeCtr = s.freeCtr := rfl

/-! ## `State.resetBlock` -/

@[simp] theorem State.resetBlock_cmd (s : State) : s.resetBlock.cmd = State.reset.cmd := rfl
@[simp] theorem State.resetBlock_arg0 (s : State) : s.resetBlock.arg0 = State.reset.arg0 := rfl
@[simp] theorem State.resetBlock_arg1 (s : State) : s.resetBlock.arg1 = State.reset.arg1 := rfl
@[simp] theorem State.resetBlock_busy (s : State) : s.resetBlock.busy = State.reset.busy := rfl
@[simp] theorem State.resetBlock_done (s : State) : s.resetBlock.done = State.reset.done := rfl
@[simp] theorem State.resetBlock_flag (s : State) : s.resetBlock.flag = State.reset.flag := rfl
@[simp] theorem State.resetBlock_err (s : State) : s.resetBlock.err = State.reset.err := rfl
@[simp] theorem State.resetBlock_tstate (s : State) : s.resetBlock.tstate = State.reset.tstate := rfl
@[simp] theorem State.resetBlock_res0 (s : State) : s.resetBlock.res0 = State.reset.res0 := rfl
@[simp] theorem State.resetBlock_res1 (s : State) : s.resetBlock.res1 = State.reset.res1 := rfl
@[simp] theorem State.resetBlock_errinfo (s : State) : s.resetBlock.errinfo = State.reset.errinfo := rfl
@[simp] theorem State.resetBlock_dive (s : State) : s.resetBlock.dive = State.reset.dive := rfl
@[simp] theorem State.resetBlock_sb (s : State) : s.resetBlock.sb = State.reset.sb := rfl
@[simp] theorem State.resetBlock_sbptr (s : State) : s.resetBlock.sbptr = State.reset.sbptr := rfl
@[simp] theorem State.resetBlock_fb (s : State) : s.resetBlock.fb = State.reset.fb := rfl
@[simp] theorem State.resetBlock_fbptr (s : State) : s.resetBlock.fbptr = State.reset.fbptr := rfl
@[simp] theorem State.resetBlock_retry (s : State) : s.resetBlock.retry = State.reset.retry := rfl
@[simp] theorem State.resetBlock_choff (s : State) : s.resetBlock.choff = State.reset.choff := rfl
@[simp] theorem State.resetBlock_op (s : State) : s.resetBlock.op = State.reset.op := rfl
@[simp] theorem State.resetBlock_t0 (s : State) : s.resetBlock.t0 = State.reset.t0 := rfl
@[simp] theorem State.resetBlock_chcnt (s : State) : s.resetBlock.chcnt = State.reset.chcnt := rfl
@[simp] theorem State.resetBlock_txpos (s : State) : s.resetBlock.txpos = State.reset.txpos := rfl
@[simp] theorem State.resetBlock_sleeping (s : State) : s.resetBlock.sleeping = State.reset.sleeping := rfl
@[simp] theorem State.resetBlock_count (s : State) : s.resetBlock.count = State.reset.count := rfl
@[simp] theorem State.resetBlock_imageChanged (s : State) : s.resetBlock.imageChanged = State.reset.imageChanged := rfl
@[simp] theorem State.resetBlock_img (s : State) : s.resetBlock.img = s.img := rfl
@[simp] theorem State.resetBlock_tx (s : State) : s.resetBlock.tx = s.tx := rfl
@[simp] theorem State.resetBlock_rx (s : State) : s.resetBlock.rx = s.rx := rfl
@[simp] theorem State.resetBlock_now (s : State) : s.resetBlock.now = s.now := rfl
@[simp] theorem State.resetBlock_txReady (s : State) : s.resetBlock.txReady = s.txReady := rfl
@[simp] theorem State.resetBlock_env (s : State) : s.resetBlock.env = s.env := rfl
@[simp] theorem State.resetBlock_hostOut (s : State) : s.resetBlock.hostOut = s.hostOut := rfl
@[simp] theorem State.resetBlock_freeCtr (s : State) : s.resetBlock.freeCtr = s.freeCtr := rfl

/-! ## The two ways a command ends, as record updates -/

theorem State.succeed_eq (s : State) (r0 r1 : Half) (f : Bool) :
    s.succeed r0 r1 f =
      { s with res0 := r0, res1 := r1, flag := f, err := .noError, errinfo := 0, busy := false, done := true } := rfl

theorem State.reject_eq (s : State) (e : ErrCode) (i : BitVec 4) :
    s.reject e i =
      { s with res0 := 0, res1 := 0, flag := false, err := e, errinfo := i, busy := false, done := true } := rfl

end Sys2Proof.Machine
end

