-- ==== Sys2Proof/Laws/Export.lean ====
section
/-! SUPPORT. What the staging of EXPORT does, dive by dive. -/

namespace Sys2Proof.Machine

open Sys2Proof.Param Sys2Proof.Safety

/-- The staging of one dive: its record, or DataError 2 with the record's head staged. -/
theorem stageDive_eq (s : State) :
    s.stageDive = .ok
      (match profileSegment s.img s.dive.toNat with
        | none => .stopped .dataError 2 { s with sb := s.sb ++ recordHead s.img s.dive.toNat }
        | some _ => .staged { s with sb := s.sb ++ diveRecord s.img s.dive.toNat }) := by
  unfold State.stageDive
  rw [deviceIdentity_eq]
  simp only [State.append_img, State.append_dive, bind, Except.bind, logbookStartIndex_eq,
    isLogbookIndexValid_slot, if_true, logbookEntry_eq, findDepthProfileStart_eq]
  cases h : profileSegment s.img s.dive.toNat with
  | none => simp [State.append, recordHead, pure, Except.pure]
  | some p =>
    obtain ⟨start, len⟩ := p
    have hb := segment_bounds h
    have hv : isDepthProfileIndexValid start = true := by simpa [isDepthProfileIndexValid, profEnd] using hb.1
    simp [hv, profileSamples_eq _ _ hb.1, State.append, diveRecord, h, recordHead, lo8_hi8, pure, Except.pure]

/-- A staged record, and what follows it. -/
theorem afterDive_eq (s : State) (record : List Byte) :
    (if s.lastDive then Host.Outcome.next (({ s with sb := s.sb ++ record } : State).closeEnvelope.beginBulk)
      else .next { s with sb := s.sb ++ record, dive := s.dive + 1 } : Result) = .next (afterDive s record) := by
  unfold State.lastDive afterDive
  by_cases h : s.dive.toNat + 1 < s.count.toNat
  · simp [h, Nat.not_le.2 h]
  · have hc : 0 < (closed (s.sb ++ record)).length := by simp [closed]
    simp [h, Nat.le_of_not_lt h, closeEnvelope_eq, State.beginBulk, State.nextChunk, State.sblen, hc, State.buildChunk,
      State.startSending, chunkPacket_eq, chunkPayload, chunkOf]

/-- One step of the staging while the image is stable. -/
theorem stageStep_eq (s : State) (h : s.imageChanged = false) :
    s.stageStep =
      (match profileSegment s.img s.dive.toNat with
        | none => .next (({ s with sb := s.sb ++ recordHead s.img s.dive.toNat } : State).reject .dataError 2)
        | some _ => .next (afterDive s (diveRecord s.img s.dive.toNat))) := by
  rw [State.stageStep, if_neg (by simp [h]), stageDive_eq, orFault_ok]
  cases profileSegment s.img s.dive.toNat with
  | none => rfl
  | some p => exact afterDive_eq s _

/-- The loop body after the image has changed: no profile, any record that a dive can have, or no room. -/
theorem stageUnstable_cases (s : State) :
    ∃ (head samples : List Byte) (k : Nat), head.length = 16 ∧ samples.length ≤ 0x5FE ∧
      ((s.sb.length + 16 ≤ 6144 ∧ s.stageUnstable = .stopped .dataError 2 { s with sb := s.sb ++ head, freeCtr := k }) ∨
        (s.sb.length + 18 + samples.length + (if s.lastDive then 1 else 0) ≤ 6144 ∧
          s.stageUnstable =
            .staged { s with sb := s.sb ++ (head ++ littleEndian samples.length ++ samples), freeCtr := k }) ∨
        (6144 < s.sb.length + 0x5FE + 19 ∧ s.stageUnstable = .stopped .bufferOverflow 1 { s with freeCtr := k })) := by
  rw [State.stageUnstable]
  generalize ((s.drawn 1).freeBits 16).toNat = c
  have hlt : c % (profEnd - 1) < 0x5FF := Nat.mod_lt _ (by decide)
  generalize c % (profEnd - 1) = n at hlt
  by_cases hf : s.freeBits 1 = 0
  · rw [if_pos hf]
    by_cases hr : (s.drawn 2).fits 16 = true
    · refine ⟨(s.drawn 2).freeBytes 16, [], s.freeCtr + 2 + 16, freeBytes_length _ _, by decide, .inl ⟨?_, ?_⟩⟩
      · simpa [State.fits, State.sblen, sbCap] using hr
      · rw [if_pos hr]; rfl
    · refine ⟨(s.drawn 2).freeBytes 16, [], s.freeCtr + 2, freeBytes_length _ _, by decide, .inr (.inr ⟨?_, ?_⟩)⟩
      · simp [State.fits, State.sblen, sbCap] at hr; omega
      · rw [if_neg hr]; rfl
  · rw [if_neg hf]
    have hr' : (s.drawn 2).fits (18 + n + if (s.drawn 2).lastDive then 1 else 0) = true ↔
        s.sb.length + (18 + n + if s.lastDive then 1 else 0) ≤ 6144 :=
      decide_eq_true_iff (p := s.sb.length + (18 + n + if s.lastDive then 1 else 0) ≤ 6144)
    by_cases hr : (s.drawn 2).fits (18 + n + if (s.drawn 2).lastDive then 1 else 0) = true
    · refine ⟨(s.drawn 2).freeBytes 16, ((s.drawn 2).drawn 16).freeBytes n, s.freeCtr + 2 + 16 + n, freeBytes_length _ _,
        ?_, .inr (.inl ⟨?_, ?_⟩)⟩
      · rw [freeBytes_length]; omega
      · have := hr'.1 hr
        rw [freeBytes_length]; omega
      · rw [if_pos hr, freeBytes_length]
        simp [State.appendFree, State.append, State.drawn, State.freeBytes, lo8_hi8]
    · refine ⟨(s.drawn 2).freeBytes 16, [], s.freeCtr + 2, freeBytes_length _ _, by decide, .inr (.inr ⟨?_, ?_⟩)⟩
      · have := (not_congr hr').1 hr
        split at this <;> omega
      · rw [if_neg hr]; rfl

/-- One step of the staging after the image has changed. -/
theorem stageStep_changed (s : State) (h : s.imageChanged = true) :
    ∃ (head samples : List Byte) (k : Nat), head.length = 16 ∧ samples.length ≤ 0x5FE ∧
      ((s.sb.length + 16 ≤ 6144 ∧
          s.stageStep = .next (({ s with sb := s.sb ++ head, freeCtr := k } : State).reject .dataError 2)) ∨
        (s.sb.length + 18 + samples.length + (if s.lastDive then 1 else 0) ≤ 6144 ∧
          s.stageStep = .next (afterDive { s with freeCtr := k } (head ++ littleEndian samples.length ++ samples))) ∨
        (6144 < s.sb.length + 0x5FE + 19 ∧
          s.stageStep = .next (({ s with freeCtr := k } : State).reject .bufferOverflow 1))) := by
  obtain ⟨head, samples, k, h1, h2, h3⟩ := stageUnstable_cases s
  refine ⟨head, samples, k, h1, h2, ?_⟩
  rw [State.stageStep, if_pos h, orFault_ok]
  rcases h3 with ⟨h3, h4⟩ | ⟨h3, h4⟩ | ⟨h3, h4⟩
  · exact .inl ⟨h3, by rw [h4]⟩
  · exact .inr (.inl ⟨h3, by rw [h4]; exact afterDive_eq { s with freeCtr := k } _⟩)
  · exact .inr (.inr ⟨h3, by rw [h4]⟩)

/-! ## The image while EXPORT is staging -/

theorem isStaging_iff (s : State) : s.isStaging = true ↔ s.busy = true ∧ s.tstate = .idle := by simp [State.isStaging]

theorem middle_bits (a b : Byte) : a &&& 0x0E = b &&& 0x0E ↔ a.extractLsb' 1 3 = b.extractLsb' 1 3 := by
  have h : ∀ x : Byte, x &&& 0x0E = (0 : BitVec 4) ++ x.extractLsb' 1 3 ++ (0 : BitVec 1) := by decide
  rw [h a, h b]
  constructor
  · intro e
    have := congrArg (BitVec.extractLsb' 1 3) e
    have g : ∀ y : BitVec 3, ((0 : BitVec 4) ++ y ++ (0 : BitVec 1)).extractLsb' 1 3 = y := by decide
    rwa [g, g] at this
  · intro e; rw [e]

theorem exportSees_iff (a : Nat) (old new : Byte) : exportSees a old new = true ↔ exportTells a old new := by
  unfold exportSees exportTells readByExport
  simp only [addrModel, addrSerial, addrCursor, addrTime, addrProfEnd, Bool.and_eq_true, Bool.or_eq_true,
    decide_eq_true_eq, or_assoc]
  refine and_congr Iff.rfl ?_
  by_cases h : a = 0x7F7
  · simp only [h, if_true, bne_iff_ne, ne_eq, middle_bits]
  · simp only [h, if_false, bne_iff_ne, ne_eq, Nat.reduceAdd]

/-- What a byte at the image port does. -/
theorem presentByte_quiet {s : State} {a : Nat} {b : Byte}
    (h : ¬ (s.busy = true ∧ s.tstate = .idle ∧ exportTells a (s.img.get a) b)) :
    s.presentByte a b = { s with img := s.img.put a b } := by
  rw [State.presentByte, if_neg]
  rwa [Bool.and_eq_true, isStaging_iff, exportSees_iff, and_assoc]

theorem presentByte_seen {s : State} {a : Nat} {b : Byte} (hb : s.busy = true) (ht : s.tstate = .idle)
    (h : exportTells a (s.img.get a) b) :
    s.presentByte a b =
      { s with img := s.img.put a b, sb := s.freeBytes s.sb.length, imageChanged := true,
               freeCtr := s.freeCtr + s.sb.length } := by
  rw [State.presentByte, if_pos (by rw [Bool.and_eq_true, isStaging_iff, exportSees_iff]; exact ⟨⟨hb, ht⟩, h⟩)]
  rfl

/-- Images that agree on what the scan reads have the same sentinels. -/
theorem sentinelDistances_congr {m m' : Memory} (he : endCursor m = endCursor m')
    (h : ∀ a, a < 0x600 → m.get a = m'.get a) : sentinelDistances m = sentinelDistances m' := by
  unfold sentinelDistances
  rw [he]
  split
  · refine List.filter_congr fun d _ => ?_
    have hb : behind m d = behind m' d := by unfold behind; rw [he]
    rw [hb, h _ (behind_lt m' d)]
  · rfl

/-- A byte that EXPORT cannot tell from the old one leaves the dive count and the sentinels as they are. -/
theorem put_untold {m : Memory} (hm : m.wf = true) {a : Nat} {b : Byte} (h : ¬ exportTells a (m.get a) b) :
    storedDives (m.put a b) = storedDives m ∧ sentinelDistances (m.put a b) = sentinelDistances m := by
  have hg : ∀ x, (x < 0x600 ∨ x = 0x7F5 ∨ x = 0x7F6) → (m.put a b).get x = m.get x := fun x hx => by
    by_cases hxa : x = a
    · subst hxa
      rw [Memory.get_put_same hm]
      by_contra hne
      exact h ⟨by omega, by rw [if_neg (by omega)]; exact fun e => hne e.symm⟩
    · exact Memory.get_put_other m b hxa
  have he : endCursor (m.put a b) = endCursor m := by
    unfold endCursor
    rw [hg 0x7F6 (by omega)]
    by_cases ha : a = 0x7F7
    · subst ha
      rw [Memory.get_put_same hm]
      have hbits : (m.get 0x7F7).extractLsb' 1 3 = b.extractLsb' 1 3 := by
        by_contra hne
        exact h ⟨by omega, by rw [if_pos rfl]; exact hne⟩
      have hn := congrArg BitVec.toNat hbits
      simp only [BitVec.extractLsb'_toNat, Nat.shiftRight_eq_div_pow] at hn
      norm_num at hn
      rw [hn]
    · rw [Memory.get_put_other m b (Ne.symm ha)]
  exact ⟨by unfold storedDives; rw [hg 0x7F5 (by omega)], sentinelDistances_congr he fun x hx => hg x (.inl hx)⟩

theorem entryBytes_length (m : Memory) (i : Nat) : (entryBytes m i).length = 12 := rfl

theorem identityBytes_length (m : Memory) : (identityBytes m).length = 4 := rfl

theorem recordHead_length (m : Memory) (n : Nat) : (recordHead m n).length = 16 := rfl

theorem openHeader_length (m : Memory) : (openHeader m).length = 7 := rfl

theorem closed_length (sb : List Byte) (h : 2 ≤ sb.length) : (closed sb).length = sb.length + 1 := by
  simp [closed, littleEndian]; omega

/-- A record's length is that of its segment and 17 bytes more. -/
theorem diveRecord_length {m : Memory} {n d : Nat} (h : (sentinelDistances m)[n]? = some d) :
    (diveRecord m n).length = 17 + (d - segmentEnd m n) := by
  have := segmentEnd_lt h
  simp [diveRecord, profileSegment, h, recordHead_length, littleEndian, sampleBytes_length]
  omega

end Sys2Proof.Machine
end

