-- ==== Sys2Proof/Laws/PerInstr.lean ====
section
/-! SUPPORT. A family of statements about every command as syntax. -/

/-- A command's word has format C: the field `zero` is 0x00 and the field `opcode` is in the map of rule R65
(30_encoding.md rules R63, R65). -/
def Sys2Proof.Laws.FormatC.Statement (i : Sys2Proof.Instr) : Prop :=
  i.wf = true ∧ Sys2Proof.wordWf (Sys2Proof.encode i) = true ∧
    Sys2Proof.opcodeField (Sys2Proof.encode i) = Sys2Proof.opcode i

theorem Sys2Proof.Laws.FormatC.sbclr : Sys2Proof.Laws.FormatC.Statement .sbclr := ⟨by decide, by decide, by decide⟩
theorem Sys2Proof.Laws.FormatC.totcnt : Sys2Proof.Laws.FormatC.Statement .totcnt := ⟨by decide, by decide, by decide⟩
theorem Sys2Proof.Laws.FormatC.stocnt : Sys2Proof.Laws.FormatC.Statement .stocnt := ⟨by decide, by decide, by decide⟩
theorem Sys2Proof.Laws.FormatC.logidx : Sys2Proof.Laws.FormatC.Statement .logidx := ⟨by decide, by decide, by decide⟩
theorem Sys2Proof.Laws.FormatC.profend : Sys2Proof.Laws.FormatC.Statement .profend := ⟨by decide, by decide, by decide⟩
theorem Sys2Proof.Laws.FormatC.proffind : Sys2Proof.Laws.FormatC.Statement .proffind := ⟨by decide, by decide, by decide⟩
theorem Sys2Proof.Laws.FormatC.logvalid : Sys2Proof.Laws.FormatC.Statement .logvalid := ⟨by decide, by decide, by decide⟩
theorem Sys2Proof.Laws.FormatC.profvalid : Sys2Proof.Laws.FormatC.Statement .profvalid := ⟨by decide, by decide, by decide⟩
theorem Sys2Proof.Laws.FormatC.wrlog : Sys2Proof.Laws.FormatC.Statement .wrlog := ⟨by decide, by decide, by decide⟩
theorem Sys2Proof.Laws.FormatC.wrprof : Sys2Proof.Laws.FormatC.Statement .wrprof := ⟨by decide, by decide, by decide⟩
theorem Sys2Proof.Laws.FormatC.wrident : Sys2Proof.Laws.FormatC.Statement .wrident := ⟨by decide, by decide, by decide⟩
theorem Sys2Proof.Laws.FormatC.msgenc : Sys2Proof.Laws.FormatC.Statement .msgenc := ⟨by decide, by decide, by decide⟩
theorem Sys2Proof.Laws.FormatC.pktsend : Sys2Proof.Laws.FormatC.Statement .pktsend := ⟨by decide, by decide, by decide⟩
theorem Sys2Proof.Laws.FormatC.bulksend : Sys2Proof.Laws.FormatC.Statement .bulksend := ⟨by decide, by decide, by decide⟩
theorem Sys2Proof.Laws.FormatC.envopen : Sys2Proof.Laws.FormatC.Statement .envopen := ⟨by decide, by decide, by decide⟩
theorem Sys2Proof.Laws.FormatC.envclose : Sys2Proof.Laws.FormatC.Statement .envclose := ⟨by decide, by decide, by decide⟩
theorem Sys2Proof.Laws.FormatC.exportRun : Sys2Proof.Laws.FormatC.Statement .exportRun := ⟨by decide, by decide, by decide⟩
end

