-- ==== Sys2Proof/Laws/Step.lean ====
section
/-! SUPPORT. What a step can be, and how runs of steps compose. -/

namespace Sys2Proof.Machine

open Sys2Proof.Param

/-! ## Steps -/

theorem step_nil {s : State} (h : s.env = []) : step s = s.sequencerStep := by simp [step, stepOnce, h]

theorem step_cons {s : State} {e : Event} {rest : List Event} (h : s.env = e :: rest) :
    step s = act { s with env := rest } e := by simp [step, stepOnce, h]

theorem sequencer_idle {s : State} (h : s.busy = false) : s.sequencerStep = .next s := by
  simp [State.sequencerStep, h]

theorem sequencer_staging {s : State} (h : s.busy = true) (ht : s.tstate = .idle) :
    s.sequencerStep = s.stageStep := by simp [State.sequencerStep, h, ht]

theorem sequencer_sending {s : State} (h : s.busy = true) (ht : s.tstate = .sending) :
    s.sequencerStep = .next s.emitStep := by simp [State.sequencerStep, h, ht]

theorem sequencer_waiting {s : State} (h : s.busy = true) (ht : s.tstate = .awaitingAck) :
    s.sequencerStep = .next s.waitStep := by simp [State.sequencerStep, h, ht]

theorem hostWrite_cmd {s : State} (h : s.busy = false) (v : Half) : hostWrite s .cmd v = issueCommand s v := by
  simp [hostWrite, h]

theorem issueCommand_ok {s : State} {v : Half} {i : Instr} (h : decode v = .ok i) :
    issueCommand s v = exec i (s.accept v) := by simp [issueCommand, h]

theorem issueCommand_error {s : State} {v : Half} {w : IllegalWord} (h : decode v = .error w) :
    issueCommand s v = .next ((s.accept v).rejectWord w) := by simp [issueCommand, h]

/-- A command word written while `BUSY = 0` runs its command in the same step. -/
theorem step_command {s : State} {v : Half} {rest : List Event} {i : Instr} (hb : s.busy = false)
    (he : s.env = .hostWrite .cmd v :: rest) (h : decode v = .ok i) :
    step s = exec i (({ s with env := rest } : State).accept v) := by
  rw [step_cons he]
  exact (hostWrite_cmd (s := { s with env := rest }) hb v).trans (issueCommand_ok h)

/-- An illegal word written while `BUSY = 0` completes in the same step. -/
theorem step_illegal {s : State} {v : Half} {rest : List Event} {w : IllegalWord} (hb : s.busy = false)
    (he : s.env = .hostWrite .cmd v :: rest) (h : decode v = .error w) :
    step s = .next ((({ s with env := rest } : State).accept v).rejectWord w) := by
  rw [step_cons he]
  exact (hostWrite_cmd (s := { s with env := rest }) hb v).trans (issueCommand_error h)

/-- The fetch of `withFetchWord` runs the decoded command. -/
theorem step_withFetchWord {s : State} {nbits w : Nat} {i : Instr} (h : decode (BitVec.ofNat 16 w) = .ok i) :
    step (s.withFetchWord nbits w) = exec i (({ s with busy := false } : State).accept (BitVec.ofNat 16 w)) := by
  exact step_command rfl rfl h

/-! ## Transport -/

theorem emitStep_byte {s : State} {b : Byte} (h : s.fb[s.txpos]? = some b) (hr : s.txReady = true) :
    s.emitStep = { s with tx := s.tx ++ [b], txpos := s.txpos + 1 } := by simp [State.emitStep, h, hr]

theorem emitStep_end {s : State} (h : s.fb.length ≤ s.txpos) : s.emitStep = s.enterWait := by
  simp [State.emitStep, List.getElem?_eq_none h]

theorem waitStep_poll {s : State} (h : s.sleeping = none) : s.waitStep = s.pollStep := by simp [State.waitStep, h]

theorem pollStep_silent {s : State} (h : s.rx = []) : s.pollStep = s.timeoutOrSleep := by simp [State.pollStep, h]

theorem classify_ack : classify 0x06 = .ack := rfl

theorem classify_noise {b : Byte} (h : b = 0x00 ∨ b = 0xFF) : classify b = .noise := by
  rcases h with rfl | rfl <;> rfl

theorem classify_nak {b : Byte} (h1 : b ≠ 0x06) (h2 : b ≠ 0x00) (h3 : b ≠ 0xFF) : classify b = .nak := by
  rw [classify, if_neg h1, if_neg (by simp only [Param.noiseLow, Param.noiseHigh]; tauto)]

/-! ## Runs -/

theorem run_zero (s : State) : Host.Core.run Sys2Proof.core 0 s = .next s := rfl

theorem run_succ {s t : State} (n : Nat) (h : step s = .next t) :
    Host.Core.run Sys2Proof.core (n + 1) s = Host.Core.run Sys2Proof.core n t := by
  have h' : Sys2Proof.core.step s = .next t := h
  simp only [Host.Core.run, h']

theorem run_fault {s : State} {f : Fault} (n : Nat) (h : step s = .fault f) :
    Host.Core.run Sys2Proof.core (n + 1) s = .fault f := by
  have h' : Sys2Proof.core.step s = .fault f := h
  simp only [Host.Core.run, h']

theorem run_refused {s : State} {f : Refusal} (n : Nat) (h : step s = .refused f) :
    Host.Core.run Sys2Proof.core (n + 1) s = .refused f := by
  have h' : Sys2Proof.core.step s = .refused f := h
  simp only [Host.Core.run, h']

/-- Runs compose. -/
theorem run_add : ∀ (m n : Nat) {s t : State}, Host.Core.run Sys2Proof.core m s = .next t →
    Host.Core.run Sys2Proof.core (m + n) s = Host.Core.run Sys2Proof.core n t
  | 0, n, s, t, h => by
    injection h with h
    rw [h, Nat.zero_add]
  | m + 1, n, s, t, h => by
    rw [Nat.add_right_comm]
    cases hs : step s with
    | next u =>
      rw [run_succ m hs] at h
      rw [run_succ _ hs]
      exact run_add m n h
    | fault f => rw [run_fault m hs] at h; cases h
    | refused f => rw [run_refused m hs] at h; cases h

end Sys2Proof.Machine
end

