-- ==== Sys2Proof/Tests/Slice0.lean ====
section
/-! SUPPORT. Tests: small vectors of 95_test_vectors.md, the refusals of ill-formed words, and for every statement with
hypotheses a concrete state that meets them. -/

namespace Sys2Proof.Tests

open Sys2Proof Sys2Proof.Machine Sys2Proof.Safety

/-! ## Ill-formed words are refused -/

/-- The check of the field `zero`: 0x0112 is LOGIDX with an upper byte (95_test_vectors.md P4). -/
theorem test_word_upper_byte : wordZeroField 0x0112 = false ∧ wordWf 0x0112 = false ∧ wordWf 0x0012 = true := by decide
/-- The check of the field `opcode`: the value before SBCLR and the one after EXPORT (30_encoding.md rule R67). -/
theorem test_word_unknown_opcode :
    wordKnownOpcode 0x0000 = false ∧ wordWf 0x0000 = false ∧ wordWf 0x0043 = false ∧ wordWf 0x0042 = true := by decide
theorem test_every_command_is_well_formed : Instr.all.length = 17 ∧ ∀ i ∈ Instr.all, i.wf = true := by decide
theorem test_decoder_refuses_by_name :
    decode 0x0112 = .error .upperByte ∧ decode 0x0100 = .error .upperByte ∧ decode 0xFFFF = .error .upperByte ∧
      decode 0x0000 = .error .undefinedOpcode ∧ decode 0x0043 = .error .undefinedOpcode := by decide

/-! ## Command words written out bit by bit: 8 bits zero, 8 bits opcode (30_encoding.md rules R63, R65) -/

theorem test_decode_sbclr : decode 0b00000000_00000001 = .ok .sbclr := by decide
theorem test_decode_totcnt : decode 0b00000000_00010000 = .ok .totcnt := by decide
theorem test_decode_stocnt : decode 0b00000000_00010001 = .ok .stocnt := by decide
theorem test_decode_logidx : decode 0b00000000_00010010 = .ok .logidx := by decide
theorem test_decode_profend : decode 0b00000000_00010011 = .ok .profend := by decide
theorem test_decode_proffind : decode 0b00000000_00010100 = .ok .proffind := by decide
theorem test_decode_logvalid : decode 0b00000000_00010101 = .ok .logvalid := by decide
theorem test_decode_profvalid : decode 0b00000000_00010110 = .ok .profvalid := by decide
theorem test_decode_wrlog : decode 0b00000000_00100000 = .ok .wrlog := by decide
theorem test_decode_wrprof : decode 0b00000000_00100001 = .ok .wrprof := by decide
theorem test_decode_wrident : decode 0b00000000_00100010 = .ok .wrident := by decide
theorem test_decode_msgenc : decode 0b00000000_00110000 = .ok .msgenc := by decide
theorem test_decode_pktsend : decode 0b00000000_00110001 = .ok .pktsend := by decide
theorem test_decode_bulksend : decode 0b00000000_00110010 = .ok .bulksend := by decide
theorem test_decode_envopen : decode 0b00000000_01000000 = .ok .envopen := by decide
theorem test_decode_envclose : decode 0b00000000_01000001 = .ok .envclose := by decide
theorem test_decode_export : decode 0b00000000_01000010 = .ok .exportRun := by decide
/-- The decoder as the opcode table numbers a word's bits, and its refusals. -/
theorem test_table_word :
    decodeTableWord 16 0x0042 = some .exportRun ∧ decodeTableWord 16 0x0043 = none ∧
      decodeTableWord 16 0x0142 = none := by decide
/-- The register numbers of 10_state.md rule R11 that the programs of 95_test_vectors.md section 7 use. -/
theorem test_register_numbers :
    regNumber .cmd = 0x0 ∧ regNumber .arg0 = 0x1 ∧ regNumber .arg1 = 0x2 ∧ regNumber .sbptr = 0x9 ∧
      regNumber .sbdata = 0xA ∧ regNumber .fbdata = 0xD := by decide

/-! ## One command on a small state (vectors of 95_test_vectors.md, the section named) -/

/-- Image A of section 2. -/
def imageA : Memory :=
  [(0x010, 0xFF), (0x011, 0x21), (0x012, 0x22), (0x013, 0x23), (0x600, 0xA0), (0x601, 0xA1), (0x602, 0xA2),
   (0x603, 0xA3), (0x604, 0xA4), (0x605, 0xA5), (0x606, 0xA6), (0x607, 0xA7)] ++
  [(0x608, 0xA8), (0x609, 0xA9), (0x60A, 0xAA), (0x60B, 0xAB), (0x7BC, 0x1C), (0x7ED, 0x12), (0x7EE, 0x34),
   (0x7EF, 0x56), (0x7F3, 0x2A), (0x7F4, 0x01), (0x7F5, 0x01), (0x7F6, 0x14)] ++
  [(0x7F8, 0x78), (0x7F9, 0x56), (0x7FA, 0x34), (0x7FB, 0x12)]

/-- The state after reset, with an image. -/
def withImage (m : Memory) : State := { State.reset with img := m }
/-- The state after reset, with a staging buffer. -/
def withSb (l : List Byte) : State := { State.reset with sb := l }

/-- The command has a next state, and it has a property. -/
def ends (i : Instr) (s : State) (p : State → Bool) : Bool :=
  match exec i s with
  | .next t => p t
  | _ => false
/-- The step has a next state, and it has a property. -/
def steps (s : State) (p : State → Bool) : Bool :=
  match step s with
  | .next t => p t
  | _ => false

/-- Section 2, TOTCNT: image A. -/
theorem test_totcnt : ends .totcnt (withImage imageA) (fun t => t.res0 == 0x002A && t.statusWord == 0x0002) := by decide
/-- Section 2, TOTCNT: (12, 34) is big-endian. -/
theorem test_totcnt_order : ends .totcnt (withImage [(0x7F2, 0x12), (0x7F3, 0x34)]) (fun t => t.res0 == 0x1234) := by decide
/-- Section 2, STOCNT: FF gives 255. -/
theorem test_stocnt : ends .stocnt (withImage [(0x7F5, 0xFF)]) (fun t => t.res0 == 255) := by decide
/-- Section 2, LOGIDX: cursor 1, N 1 (a negative difference). -/
theorem test_logidx_wraps : ends .logidx { withImage imageA with arg0 := 1 } (fun t => t.res0 == 0x7B0) := by decide
/-- Section 2, LOGIDX: cursor 200, N 255. -/
theorem test_logidx_large :
    ends .logidx { withImage [(0x7F4, 200)] with arg0 := 255 } (fun t => t.res0 == 0x6D8) := by decide
/-- Section 2, PROFEND: (34, 0B). -/
theorem test_profend : ends .profend (withImage [(0x7F6, 0x34), (0x7F7, 0x0B)]) (fun t => t.res0 == 0x534) := by decide
/-- Section 2, PROFEND: (00, 10), bit 4 is masked off. -/
theorem test_profend_mask : ends .profend (withImage [(0x7F7, 0x10)]) (fun t => t.res0 == 0x000) := by decide
/-- Section 2, PROFFIND: image A, N 0. -/
theorem test_proffind :
    ends .proffind (withImage imageA) (fun t => t.res0 == 0x0010 && t.res1 == 4 && t.statusWord == 0x0006) := by
  decide +kernel
/-- Section 2, PROFFIND: E = 0 and the first step wraps to 0x5FF. -/
theorem test_proffind_wraps :
    ends .proffind (withImage [(0x5FE, 0xFF), (0x5FF, 0x42)]) (fun t => t.res0 == 0x05FE && t.res1 == 2) := by
  decide +kernel
/-- Section 2, LOGVALID: the last index of the ring. -/
theorem test_logvalid : ends .logvalid { State.reset with arg0 := 0x07BB } (fun t => t.statusWord == 0x0006) := by decide
/-- Section 2, LOGVALID: one past the ring. -/
theorem test_logvalid_past : ends .logvalid { State.reset with arg0 := 0x07BC } (fun t => t.statusWord == 0x0002) := by decide
/-- Section 2, PROFVALID: the last index of the ring. -/
theorem test_profvalid : ends .profvalid { State.reset with arg0 := 0x05FF } (fun t => t.statusWord == 0x0006) := by decide
/-- Section 2, PROFVALID: one past the ring. -/
theorem test_profvalid_past : ends .profvalid { State.reset with arg0 := 0x0600 } (fun t => t.statusWord == 0x0002) := by decide
/-- Section 3, SBCLR. -/
theorem test_sbclr :
    ends .sbclr { withSb [1, 2] with sbptr := 5 } (fun t => t.sblen == 0 && t.sbptr == 0 && t.statusWord == 0x0002) := by
  decide
/-- 41_serializer.md rule R96, the example. -/
theorem test_wrlog :
    ends .wrlog { withImage imageA with arg0 := 0x600 }
      (fun t => t.sb == [0xA0, 0xA1, 0xA2, 0xA3, 0xA4, 0xA5, 0xA6, 0xAA, 0xA9, 0xA8, 0xA7, 0xAB]) := by decide
/-- Section 3, WRLOG: 0xFFFF reads from 0x6C3 (no 16-bit wrap of the sum). -/
theorem test_wrlog_far :
    ends .wrlog { withImage [(0x6C3, 0xC3), (0x6CE, 0xCE)] with arg0 := 0xFFFF }
      (fun t => t.sb == [0xC3, 0, 0, 0, 0, 0, 0, 0, 0, 0, 0, 0xCE]) := by decide
/-- Section 3, WRPROF: image B's bytes at the wrap, (0x05FF, 3) gives 03 0A FF. -/
theorem test_wrprof_wraps :
    ends .wrprof { withImage [(0, 0x03), (1, 0x0A), (2, 0xFF)] with arg0 := 0x05FF, arg1 := 3 }
      (fun t => t.sb == [0x03, 0x0A, 0xFF] && t.res0 == 3) := by decide
/-- Section 3, WRPROF: (0x0600, 1) is refused. -/
theorem test_wrprof_outside :
    ends .wrprof { State.reset with arg0 := 0x0600, arg1 := 1 }
      (fun t => t.sb == [] && t.statusWord == 0x0052 && t.errinfo == 2) := by decide
/-- Section 3, WRIDENT: image A. -/
theorem test_wrident :
    ends .wrident (withImage imageA) (fun t => t.sb == [0x12, 0x34, 0x56, 0x1C] && t.res0 == 4) := by decide
/-- Section 4, MSGENC: 48 69. -/
theorem test_msgenc :
    ends .msgenc (withSb [0x48, 0x69])
      (fun t => t.fb == [0x05, 0x02, 0x00, 0x48, 0x69, 0x23, 0x26] && t.res0 == 7) := by decide
/-- Section 4, MSGENC: 41 00 42. -/
theorem test_msgenc_zero :
    ends .msgenc (withSb [0x41, 0x00, 0x42]) (fun t => t.statusWord == 0x0052 && t.errinfo == 4) := by decide
/-- Section 5, T15: nothing to send. -/
theorem test_pktsend_empty :
    ends .pktsend State.reset (fun t => t.statusWord == 0x0302 && t.res0 == 0 && t.tx == []) := by decide
/-- Section 4, chunking: the first chunk of 01 02 03 is 03 01 02 03 03. -/
theorem test_bulksend_chunk :
    ends .bulksend (withSb [1, 2, 3]) (fun t => t.fb == [3, 1, 2, 3, 3] && t.tstate == .sending) := by decide
/-- Section 4, chunking: the empty buffer is Done at once. -/
theorem test_bulksend_empty :
    ends .bulksend State.reset (fun t => t.statusWord == 0x0302 && t.res0 == 0) := by decide
/-- Section 6, ENVOPEN: image A. -/
theorem test_envopen :
    ends .envopen (withImage imageA) (fun t => t.sb == [0x00, 0x00, 0x55, 0x12, 0x34, 0x56, 0x78] && t.res0 == 7) := by
  decide
/-- Section 6, ENVCLOSE directly after ENVOPEN on image A. -/
theorem test_envclose :
    ends .envclose (withSb [0x00, 0x00, 0x55, 0x12, 0x34, 0x56, 0x78])
      (fun t => t.sb == [0x05, 0x00, 0x55, 0x12, 0x34, 0x56, 0x78, 0x58] && t.res0 == 5 && t.res1 == 0x0058) := by decide
/-- Section 6, ENVCLOSE: one byte is too few. -/
theorem test_envclose_short :
    ends .envclose (withSb [0]) (fun t => t.statusWord == 0x0052 && t.errinfo == 5) := by decide
/-- Section 6, X4: no stored dive. -/
theorem test_export_no_dive :
    ends .exportRun (withImage (imageA.put 0x7F5 0)) (fun t => t.statusWord == 0x0012 && t.sblen == 7 && t.tx == []) := by
  decide
/-- Section 6, X1: the staged envelope of image A, one step after EXPORT has begun. -/
theorem test_export_envelope :
    steps { withImage imageA with busy := true, count := 1, sb := openHeader imageA }
      (fun t => t.sb == [0x1A, 0x00, 0x55, 0x12, 0x34, 0x56, 0x78, 0x12, 0x34, 0x56, 0x1C, 0xA0, 0xA1, 0xA2, 0xA3, 0xA4,
        0xA5, 0xA6, 0xAA, 0xA9, 0xA8, 0xA7, 0xAB, 0x03, 0x00, 0x21, 0x22, 0x23, 0x08]) := by decide +kernel

/-! ## One step of a transfer (section 5) -/

/-- A transfer waiting for its response: the opcode, what is in RX, the retry counter. -/
def waiting (o : BitVec 8) (rx : List Byte) (retry : BitVec 4) : State :=
  { withSb [1, 2, 3] with
    cmd := (0 : Byte) ++ o, op := o, busy := true, tstate := .awaitingAck, fb := bulkPacket [1, 2, 3], rx := rx, retry := retry }

/-- T1: the ACK of PKTSEND. -/
theorem test_ack : steps (waiting 0x31 [0x06, 0x07] 3) (fun t =>
    t.statusWord == 0x0302 && t.res0 == 1 && t.retry == 0 && t.rx == [0x07]) := by decide
/-- T3: the tenth NAK. -/
theorem test_tenth_nak : steps (waiting 0x31 [0x07] 9) (fun t =>
    t.statusWord == 0x0432 && t.errinfo == 2 && t.retry == 10) := by decide
/-- T9: an ACK is honoured at 10000 ms, where silence is a timeout (T5). -/
theorem test_ack_beats_timeout : steps { waiting 0x31 [0x06] 0 with now := 10000 } (fun t => t.statusWord == 0x0302) ∧
    steps { waiting 0x31 [] 0 with now := 10000 } (fun t => t.statusWord == 0x0432 && t.errinfo == 1) := by decide
/-- T6: the time base wraps during the wait: 9999 ms and 10000 ms after 0xFFFFF000. -/
theorem test_timeout_across_wrap :
    steps { waiting 0x31 [] 0 with t0 := 0xFFFFF000, now := 0x0000170F } (fun t => t.busy) ∧
    steps { waiting 0x31 [] 0 with t0 := 0xFFFFF000, now := 0x00001710 } (fun t => t.statusWord == 0x0432) := by decide
/-- The image port presents a sentinel in place of a sample: taken as it is inside a transfer, where no image byte is
read (20_memory.md rule R58); every staged byte is open inside the staging of EXPORT (U5), which goes on. -/
theorem test_image_changes :
    steps { waiting 0x32 [] 0 with env := [.imageByte 0x011 0xFF] }
      (fun t => t.img.get 0x011 == 0xFF && t.busy && t.sb == [1, 2, 3] && !t.imageChanged) ∧
    steps { withSb [1, 2, 3] with busy := true, env := [.imageByte 0x011 0xFF] }
      (fun t => t.img.get 0x011 == 0xFF && t.busy && t.sblen == 3 && t.imageChanged) := by decide
/-- P4: an illegal word, on the state after reset. -/
theorem test_illegal_word : steps { State.reset with env := [.hostWrite .cmd 0x0043] } (fun t =>
    t.statusWord == 0x0042 && t.errinfo == 1) := by decide
/-- The host's word runs as the first command after reset. -/
theorem test_fetch_word : steps (State.reset.withFetchWord 16 0x0015) (fun t => t.cmd == 0x0015 && t.done) := by decide

/-! ## States that meet the hypotheses of the statements -/

/-- The state after reset, with the environment's actions. -/
def awaits (l : List Event) : State := { State.reset with env := l }
/-- A command in execution and the environment's actions. -/
def busyWith (l : List Event) : State := { waiting 0x32 [] 0 with env := l }

theorem witness_DecodeAndEncodeAgree : Instr.sbclr.wf = true ∧ Instr.exportRun.wf = true ∧ decode 0x0042 = .ok .exportRun := by
  decide
theorem witness_IllegalCommandCompletesAtOnce_opcode :
    ∀ v : Half, v = 0x0000 ∨ v = 0x0043 ∨ v = 0x00FF → (awaits [.hostWrite .cmd v]).busy = false ∧ (awaits [.hostWrite .cmd v]).env = [.hostWrite .cmd v] ∧
      v.extractLsb' 8 8 = 0 ∧ ∀ i : Instr, opcode i ≠ v.extractLsb' 0 8 := by
  intro v h; rcases h with rfl | rfl | rfl <;> exact ⟨rfl, rfl, by decide, fun i => by cases i <;> decide⟩
theorem witness_IllegalCommandCompletesAtOnce_upper :
    (awaits [.hostWrite .cmd 0x0100]).busy = false ∧ (0x0100 : Half).extractLsb' 8 8 ≠ 0 ∧
      (0xFFFF : Half).extractLsb' 8 8 ≠ 0 := by decide
theorem witness_StepRunsTheDecodedCommand :
    (awaits [.hostWrite .cmd 0x0010]).busy = false ∧ (awaits [.hostWrite .cmd 0x0010]).env = [.hostWrite .cmd 0x0010] ∧
      decode 0x0010 = .ok .totcnt := by decide
theorem witness_LogidxComputesTheStartIndex :
    ({ State.reset with arg0 := 0x0100 } : State).arg0.extractLsb' 8 8 ≠ 0 ∧
    ({ State.reset with arg0 := 0x00FF } : State).arg0.extractLsb' 8 8 = 0 ∧
    (State.reset).arg0.extractLsb' 8 8 = 0 := by decide
theorem witness_ProffindFindsTheSentinelOfTheDive :
    ({ withImage imageA with arg0 := 0xFFFF } : State).arg0.extractLsb' 8 8 ≠ 0 ∧
    (withImage imageA).arg0.extractLsb' 8 8 = 0 := by decide

/-- Two sentinels behind the end cursor 0x006, two stored dives: the segments are (0x003, 3) and (0x000, 3). -/
def imageTwo : Memory :=
  [(0x000, 0xFF), (0x001, 0x11), (0x002, 0x12), (0x003, 0xFF), (0x004, 0x21), (0x005, 0x22), (0x7F4, 2), (0x7F5, 2), (0x7F6, 6)]

theorem witness_FoundSegmentsAreDelimitedBySentinels :
    ends .proffind { withImage imageTwo with arg0 := BitVec.ofNat 16 0 } (fun t => t.flag && t.res0 == 3 && t.res1 == 3) ∧
    ends .proffind { withImage imageTwo with arg0 := BitVec.ofNat 16 1 } (fun t => t.flag && t.res0 == 0 && t.res1 == 3) := by
  decide +kernel
theorem witness_SerializersAppendAllOrNothing :
    ends .wrident (withImage imageA) (fun t => t.err == .noError) ∧ ends .wrlog (withImage imageA) (fun t => t.err == .noError) ∧
    ends .wrprof { withImage imageA with arg1 := 1 } (fun t => t.err == .noError) ∧
    ends .wrprof { State.reset with arg0 := 0x0600 } (fun t => t.err != .noError) ∧
    ends .wrprof { withSb [0] with arg1 := 6144 } (fun t => t.err == .bufferOverflow) := by decide
theorem witness_ChecksumsCloseTheirUnits :
    ends .msgenc (withSb [0x48, 0x69]) (fun t => t.err == .noError) ∧ (withSb [0x48, 0x69]).sb ≠ [] ∧
    ends .envclose (withSb [0xAA, 0xBB]) (fun t => t.err == .noError) := by decide
theorem witness_ChunksReconstructTheBuffer :
    (withSb (List.replicate 127 1)).sb.length ≤ 6144 ∧ chunkCount (withSb (List.replicate 127 1)).sb = 2 ∧
    (withSb (List.replicate 6144 1)).sb.length ≤ 6144 ∧ (withSb []).sb.length ≤ 6144 := by
  have h : ∀ n, (withSb (List.replicate n 1)).sb.length = n := fun n => List.length_replicate
  refine ⟨?_, ?_, ?_, Nat.zero_le _⟩
  · rw [h]; omega
  · rw [chunkCount, h]
  · rw [h]

/-- A transfer about to send its packet. -/
def sending : State := { waiting 0x31 [] 0 with tstate := .sending }

theorem witness_SendingEmitsThePacketInOrder :
    sending.busy = true ∧ sending.tstate = .sending ∧ sending.txpos = 0 ∧ sending.txReady = true ∧ sending.env = [] := by decide
theorem witness_UnreadyTransportHoldsTheBlock :
    ∃ s : State, s = { sending with txReady := false } ∧
    s.busy = true ∧ s.tstate = .sending ∧ s.txpos < s.fb.length ∧ s.txReady = false ∧ s.env = [] := by
  refine ⟨_, rfl, ?_⟩; decide
theorem witness_AckAdvancesTheTransfer_packet :
    ∃ s : State, s = waiting 0x31 [0x06] 0 ∧
    s.busy = true ∧ s.tstate = .awaitingAck ∧ s.sleeping = none ∧ s.env = [] ∧ s.rx = 0x06 :: [] ∧ s.op = 0x31 := by
  refine ⟨_, rfl, ?_⟩; decide
/-- A chunk of one byte has been sent, two bytes remain. -/
theorem witness_AckAdvancesTheTransfer_next :
    ∃ s : State, s = { waiting 0x32 [0x06] 0 with fb := bulkPacket [1] } ∧
    s.busy = true ∧ s.tstate = .awaitingAck ∧ s.sleeping = none ∧ s.env = [] ∧ s.rx = 0x06 :: [] ∧ s.op ≠ 0x31 ∧
      (s.choff + BitVec.ofNat 13 (s.fb.length - 2)).toNat < s.sb.length := by
  refine ⟨_, rfl, ?_⟩; decide
theorem witness_AckAdvancesTheTransfer_last :
    ∃ s : State, s = waiting 0x32 [0x06] 0 ∧
    s.busy = true ∧ s.tstate = .awaitingAck ∧ s.sleeping = none ∧ s.env = [] ∧ s.rx = 0x06 :: [] ∧ s.op ≠ 0x31 ∧
      s.sb.length = (s.choff + BitVec.ofNat 13 (s.fb.length - 2)).toNat := by
  refine ⟨_, rfl, ?_⟩; decide
theorem witness_NoiseDoesNotExtendTheWait :
    ∀ b : Byte, b = 0x00 ∨ b = 0xFF → ∀ s ∈ [waiting 0x32 [b] 0, { waiting 0x32 [b] 0 with now := 10000 }],
    s.busy = true ∧ s.tstate = .awaitingAck ∧ s.sleeping = none ∧ s.env = [] ∧ s.rx = b :: [] ∧ (b = 0x00 ∨ b = 0xFF) := by
  intro b h s hs
  simp only [List.mem_cons, List.not_mem_nil, or_false] at hs
  rcases hs with rfl | rfl <;> exact ⟨rfl, rfl, rfl, rfl, rfl, h⟩
theorem witness_NakResendsOrFails :
    ∀ r : BitVec 4, r = 0 ∨ r = 8 ∨ r = 9 → ∃ s : State, s = waiting 0x31 [0x15] r ∧
    s.busy = true ∧ s.tstate = .awaitingAck ∧ s.sleeping = none ∧ s.env = [] ∧ s.rx = 0x15 :: [] ∧ IsNak 0x15 ∧
      (s.retry.toNat < 9 ∨ s.retry = 9) := by
  intro r hr; refine ⟨_, rfl, ?_⟩; unfold IsNak; rcases hr with rfl | rfl | rfl <;> decide
theorem witness_SilentPollTimesOutOrSleeps :
    ∀ n : Millis, n = 9999 ∨ n = 10000 → ∃ s : State, s = { waiting 0x32 [] 0 with now := n } ∧
    s.busy = true ∧ s.tstate = .awaitingAck ∧ s.sleeping = none ∧ s.env = [] ∧ s.rx = [] := by
  intro n hn; refine ⟨_, rfl, ?_⟩; rcases hn with rfl | rfl <;> decide
theorem witness_SleepLastsAtLeastTheInterval :
    ∀ n : Millis, n = 9 ∨ n = 10 → ∃ s : State, s = { waiting 0x32 [] 0 with now := n, sleeping := some 0 } ∧
    s.busy = true ∧ s.tstate = .awaitingAck ∧ s.sleeping = some 0 ∧ s.env = [] := by
  intro n hn; refine ⟨_, rfl, ?_⟩; rcases hn with rfl | rfl <;> decide

/-- An idle block with a packet in FB, about to accept PKTSEND, and the peer's answers. -/
def packetReady (rx : List Byte) : State :=
  { awaits [.hostWrite .cmd 0x0031] with fb := shortMessage [0x48, 0x69], rx := rx }

theorem witness_PacketIsDeliveredAfterNaks :
    ∀ naks : List Byte, naks = [] ∨ naks = List.replicate 9 0x07 → ∃ s : State, s = packetReady (naks ++ [0x06]) ∧
    s.busy = false ∧ s.env = [.hostWrite .cmd 0x0031] ∧ s.txReady = true ∧ s.fb ≠ [] ∧ naks.length ≤ 9 ∧
      (∀ b ∈ naks, IsNak b) ∧ s.rx = naks ++ 0x06 :: [] := by
  intro naks hn; refine ⟨_, rfl, ?_⟩; unfold IsNak; rcases hn with rfl | rfl <;> decide
theorem witness_TenNaksFailTheTransfer :
    ∀ naks : List Byte, naks = List.replicate 10 0x07 → ∃ s : State, s = packetReady (naks ++ [0x06]) ∧
    s.busy = false ∧ s.env = [.hostWrite .cmd 0x0031] ∧ s.txReady = true ∧ s.fb ≠ [] ∧ naks.length = 10 ∧
      (∀ b ∈ naks, IsNak b) ∧ s.rx = naks ++ [0x06] := by
  rintro _ rfl; refine ⟨_, rfl, ?_⟩; unfold IsNak; decide
theorem witness_BulkTransferDeliversEveryChunk :
    ∃ s : State, s = { awaits [.hostWrite .cmd 0x0032] with sb := List.replicate 127 1, rx := [0x06, 0x06, 0x07] } ∧
    s.busy = false ∧ s.env = [.hostWrite .cmd 0x0032] ∧ s.txReady = true ∧ s.sb ≠ [] ∧ s.sb.length ≤ 6144 ∧
      s.rx = List.replicate (chunkCount s.sb) 0x06 ++ [0x07] := by
  refine ⟨_, rfl, ?_⟩; decide +kernel
theorem witness_SilenceEndsInATimeout :
    ∀ ds : List Nat, ds = [9999, 10] ∨ ds = [10000] → ∃ s : State, s = { waiting 0x32 [] 0 with env := .turn :: silence ds } ∧
    s.busy = true ∧ s.tstate = .awaitingAck ∧ s.sleeping = none ∧ s.rx = [] ∧ s.t0 = s.now ∧ s.env = .turn :: silence ds ∧
      (∀ d ∈ ds, 10 ≤ d) ∧ ds.dropLast.sum < 10000 ∧ 10000 ≤ ds.sum ∧ ds.sum < 2 ^ 32 := by
  intro ds hd; refine ⟨_, rfl, ?_⟩; rcases hd with rfl | rfl <;> decide

/-- EXPORT of an image is in its staging, at a dive. -/
def stagingAt (m : Memory) (n : BitVec 8) : State := { withImage m with cmd := 0x42, op := 0x42, busy := true, count := m.get 0x7F5, dive := n }

theorem witness_ExportStagesOneDive :
    ∀ n : BitVec 8, n = 0 ∨ n = 1 ∨ n = 2 → ∃ s : State, s = stagingAt imageTwo n ∧
    s.busy = true ∧ s.tstate = .idle ∧ s.env = [] := by
  intro n hn; refine ⟨_, rfl, ?_⟩; rcases hn with rfl | rfl | rfl <;> decide
theorem witness_ExportStagesOneDive_cases :
    (stagingAt imageTwo 0).imageChanged = false ∧ (profileSegment imageTwo 0).isSome ∧
      0 + 1 < (stagingAt imageTwo 0).count.toNat ∧ (profileSegment imageTwo 1).isSome ∧
      ¬ 1 + 1 < (stagingAt imageTwo 1).count.toNat ∧ profileSegment imageTwo 2 = none := by decide +kernel
theorem witness_ExportStagesOneDive_changed :
    ∃ s : State, s = { stagingAt imageTwo 0 with imageChanged := true } ∧
    s.busy = true ∧ s.tstate = .idle ∧ s.env = [] ∧ s.imageChanged = true := ⟨_, rfl, by decide⟩

/-- An idle block with an image, about to accept EXPORT. -/
def exportReady (m : Memory) : State := { withImage m with env := [.hostWrite .cmd 0x0042] }

theorem witness_ExportStagesTheEnvelope :
    ∃ s : State, s = exportReady imageTwo ∧
    s.busy = false ∧ s.env = [.hostWrite .cmd 0x0042] ∧ storedDives s.img ≠ 0 ∧ allProfilesFound s.img := by
  refine ⟨_, rfl, ?_⟩; unfold allProfilesFound; decide +kernel
theorem witness_ExportNeverStagesMoreThanTheBound :
    ∃ s : State, s = exportReady imageTwo ∧
    s.busy = false ∧ s.env = [.hostWrite .cmd 0x0042] ∧ 1 ≤ 1 ∧
      ∃ t, Host.Core.run Sys2Proof.core 1 s = .next t ∧ t.sb.length = 7 := by
  refine ⟨_, rfl, ?_⟩; exact ⟨rfl, rfl, by decide, _, rfl, rfl⟩
/-- Three stored dives, two profiles. -/
theorem witness_ExportDataErrorSendsNothing :
    ∃ s : State, s = exportReady (imageTwo.put 0x7F5 3) ∧
    s.busy = false ∧ s.env = [.hostWrite .cmd 0x0042] ∧ 2 = (sentinelDistances s.img).length ∧ 2 < storedDives s.img := by
  refine ⟨_, rfl, ?_⟩; decide +kernel
theorem witness_ExportDeliversTheEnvelope :
    ∃ s : State, s = { exportReady imageTwo with rx := [0x06, 0x15] } ∧
    s.busy = false ∧ s.env = [.hostWrite .cmd 0x0042] ∧ s.txReady = true ∧ storedDives s.img ≠ 0 ∧
      allProfilesFound s.img ∧ s.rx = List.replicate (chunkCount (envelope s.img)) 0x06 ++ [0x15] := by
  refine ⟨_, rfl, ?_⟩; unfold allProfilesFound; decide +kernel
theorem witness_StepByStepExportStagesTheSameEnvelope :
    ∃ s : State, s = { withImage imageTwo with env := exportProgram imageTwo } ∧
    s.busy = false ∧ s.env = exportProgram s.img ∧ storedDives s.img ≠ 0 ∧ allProfilesFound s.img := by
  refine ⟨_, rfl, ?_⟩; exact ⟨rfl, rfl, by decide, by unfold allProfilesFound; decide +kernel⟩
theorem witness_CommandsEndWithTheirOwnCodes :
    ∃ s : State, s = { State.reset with busy := true } ∧
    s.busy = true ∧ ∀ i ∈ Instr.all, ends i s (fun t => !t.busy) := by
  refine ⟨_, rfl, ?_⟩; decide +kernel
theorem witness_RefusedCommandsChangeNothingElse :
    (withSb [0]).err = .noError ∧ ends .envclose (withSb [0]) (fun t => t.err == .operandError) ∧
    ends .wrprof { withSb [0] with arg1 := 6144 } (fun t => t.err == .bufferOverflow) := by decide
theorem witness_WritesAreLostWhileBusy :
    (busyWith [.hostWrite .cmd 0x0001]).busy = true ∧ (busyWith [.hostWrite .cmd 0x0001]).env = [.hostWrite .cmd 0x0001] := by
  decide
theorem witness_IdleWritesReachTheWritableRegisters (r : HostReg) :
    (awaits [.hostWrite r 0xFFFF]).busy = false ∧ (awaits [.hostWrite r 0xFFFF]).env = [.hostWrite r 0xFFFF] := ⟨rfl, rfl⟩
theorem witness_HostReadsReturnTheRegisters :
    ∀ r : HostReg, (busyWith [.hostRead r]).busy = true ∧ (busyWith [.hostRead r]).env = [.hostRead r] ∧
      (awaits [.hostRead r]).busy = false ∧ (awaits [.hostRead r]).env = [.hostRead r] := fun _ => ⟨rfl, rfl, rfl, rfl⟩
/-- The last valid byte of SB, and the first position beyond it. -/
theorem witness_SbdataIsAWindowOnTheStagingBuffer :
    ∃ s : State, s = { awaits [.hostRead .sbdata] with sb := [1, 2], sbptr := 1 } ∧
    s.busy = false ∧ s.env = [.hostRead .sbdata] ∧ s.sbptr.toNat < s.sb.length ∧
      ({ s with sbptr := 2 } : State).sb.length ≤ ({ s with sbptr := 2 } : State).sbptr.toNat := by
  refine ⟨_, rfl, ?_⟩; decide
theorem witness_SbdataIsAWindowOnTheStagingBuffer_write :
    (awaits [.hostWrite .sbdata 0x99]).busy = false ∧
      (awaits [.hostWrite .sbdata 0x99]).env = [.hostWrite .sbdata 0x99] := by decide
theorem witness_FbdataIsAWindowOnThePacket :
    ∃ s : State, s = { awaits [.hostRead .fbdata] with fb := [1, 2], fbptr := 1 } ∧
    s.busy = false ∧ s.fb.length ≤ 128 ∧ s.env = [.hostRead .fbdata] ∧ s.fbptr.toNat < s.fb.length ∧
      ({ s with fbptr := 2 } : State).fb.length ≤ ({ s with fbptr := 2 } : State).fbptr.toNat := by
  refine ⟨_, rfl, ?_⟩; decide
theorem witness_StatusReadsItsFields : (busyWith [.hostRead .status]).env = [.hostRead .status] := by decide
theorem witness_ResetClearsTheBlock : (busyWith [.rst, .turn]).env = [.rst, .turn] := by decide
theorem witness_IdleBlockWaits :
    (awaits []).busy = false ∧ (awaits []).env = [] ∧ (awaits [.turn]).busy = false ∧ (awaits [.turn]).env = [.turn] ∧
    (awaits [.arrive 0x06]).busy = false ∧ (awaits [.arrive 0x06]).env = [.arrive 0x06] ∧
      ∀ v, Event.arrive 0x06 ≠ .hostWrite .cmd v := ⟨rfl, rfl, rfl, rfl, rfl, rfl, fun _ h => by cases h⟩
theorem witness_EnvironmentActionsTakeEffect :
    ∀ e : Event, ∀ s ∈ [awaits [e], busyWith [e], { stagingAt imageTwo 0 with env := [e] }],
      s.env = [e] ∧ s.img.wf = true := by
  intro e s hs
  simp only [List.mem_cons, List.not_mem_nil, or_false] at hs
  rcases hs with rfl | rfl | rfl <;> exact ⟨rfl, rfl⟩
/-- While EXPORT stages image two: a ring byte and bit 1 of 0x7F7 are told, bit 0 of it and 0x7F3 are not. -/
theorem witness_EnvironmentActionsTakeEffect_image :
    (stagingAt imageTwo 0).busy = true ∧ (stagingAt imageTwo 0).tstate = .idle ∧
      exportTells 0x000 (imageTwo.get 0x000) 0x00 ∧ exportTells 0x7F7 (imageTwo.get 0x7F7) 0x02 ∧
      ¬ exportTells 0x7F7 (imageTwo.get 0x7F7) 0x01 ∧ ¬ exportTells 0x7F3 (imageTwo.get 0x7F3) 0x01 := by
  unfold exportTells; decide

/-- The invariant holds inside a bulk transfer too, where an ACK has arrived, and the step goes on. -/
theorem witness_StepKeepsTheInvariant :
    ∃ s : State, s = waiting 0x32 [0x06] 0 ∧ Inv s ∧ ∃ t, step s = .next t := by
  refine ⟨_, rfl, ?_⟩
  refine ⟨?_, _, rfl⟩
  constructor
  case fbPacket => exact .inr (.inl ⟨[1, 2, 3], by decide, by decide, rfl⟩)
  all_goals decide

/-- Two images that differ in the bytes 0x7BD and 0x7FF only. -/
theorem witness_UnreadImageBytesHaveNoEffect :
    ∃ (s : State) (m : Memory), s = withImage [] ∧ m = [(0x7BD, 1), (0x7FF, 2)] ∧
    s.env = [] ∧ m ≠ s.img ∧
      ∀ a, a < 0x7BD ∨ (0x7ED ≤ a ∧ a ≤ 0x7EF) ∨ (0x7F2 ≤ a ∧ a ≤ 0x7FB) → m.get a = s.img.get a := by
  refine ⟨_, _, rfl, rfl, rfl, by decide, fun a ha => ?_⟩
  have h1 : a ≠ 0x7BD := by omega
  have h2 : a ≠ 0x7FF := by omega
  simp [Memory.get, withImage, h1, h2]

end Sys2Proof.Tests
end

section
/-! The host port: what writes and reads do, and the other actions of the environment. -/

namespace Sys2Proof.Proofs

open Sys2Proof Sys2Proof.Machine Sys2Proof.Safety

/-! ## The host port -/

/-- A host read is one step, whether the block is busy or not. -/
theorem step_hostRead {s : State} {r : HostReg} {rest : List Event} (he : s.env = .hostRead r :: rest) :
    step s = .next (({ s with env := rest } : State).hostRead r) := step_cons he

theorem step_hostWrite_busy {s : State} {r : HostReg} {v : Half} {rest : List Event} (hb : s.busy = true)
    (he : s.env = .hostWrite r v :: rest) : step s = .next { s with env := rest } :=
  (step_cons he).trans (if_pos hb)

/-- A write that starts no command is one step. -/
theorem step_hostWrite_idle {s : State} {r : HostReg} {v : Half} {rest : List Event} (hb : s.busy = false)
    (he : s.env = .hostWrite r v :: rest) (hr : r ≠ .cmd) :
    step s = .next (({ s with env := rest } : State).writeReg r v) := by
  rw [step_cons he]
  cases r <;> simp_all [act, hostWrite]

theorem hostRead_defined {s : State} {r : HostReg} {v : Half} (h : s.definedRead r = some v) :
    s.hostRead r = { s.movePointer r with hostOut := s.hostOut ++ [v] } := by
  simp [State.hostRead, h]

theorem hostRead_free {s : State} {r : HostReg} (h : s.definedRead r = none) :
    s.hostRead r = { s.movePointer r with
      freeCtr := (s.movePointer r).freeCtr + 1, hostOut := s.hostOut ++ [s.freeBits (regWidth r)] } := by
  simp [State.hostRead, h, State.drawn]

theorem movePointer_busy {s : State} (h : s.busy = true) (r : HostReg) : s.movePointer r = s := if_pos h

theorem movePointer_register {s : State} {r : HostReg} (h1 : r ≠ .sbdata) (h2 : r ≠ .fbdata) :
    s.movePointer r = s := by
  cases r <;> simp_all [State.movePointer]

/-- A read of a register that is no window returns its value, and nothing else changes. -/
theorem step_readRegister {s : State} {r : HostReg} {v : Half} {rest : List Event} (he : s.env = .hostRead r :: rest)
    (h : s.definedRead r = some v) (h1 : r ≠ .sbdata) (h2 : r ≠ .fbdata) :
    step s = .next { s with env := rest, hostOut := s.hostOut ++ [v] } := by
  rw [step_hostRead he, hostRead_defined (s := { s with env := rest }) h, movePointer_register h1 h2]

theorem freeBits_lt (s : State) (w : Nat) : (s.freeBits w).toNat < 2 ^ w := by
  rw [State.freeBits, zext16, BitVec.toNat_setWidth, BitVec.toNat_setWidth]
  exact (Nat.mod_le _ _).trans_lt (Nat.mod_lt _ (Nat.two_pow_pos w))

theorem zext16_byte (b : Byte) : zext16 b = (0 : Byte) ++ b := by
  rw [concat_bytes]
  apply BitVec.eq_of_toNat_eq
  simp [zext16]

/-- A pointer register moves by 1 modulo the size of its range. -/
theorem succ_eq_ofNat_mod {w : Nat} (p : BitVec w) : p + 1 = BitVec.ofNat w ((p.toNat + 1) % 2 ^ w) := by
  apply BitVec.eq_of_toNat_eq
  simp [BitVec.toNat_add]

theorem movePointer_sbdata {s : State} (hb : s.busy = false) :
    s.movePointer .sbdata = { s with sbptr := BitVec.ofNat 13 ((s.sbptr.toNat + 1) % 8192) } := by
  have hsucc : BitVec.ofNat 13 ((s.sbptr.toNat + 1) % 8192) = s.sbptr + 1 := (succ_eq_ofNat_mod s.sbptr).symm
  rw [hsucc]
  simp [State.movePointer, hb]

theorem movePointer_fbdata {s : State} (hb : s.busy = false) :
    s.movePointer .fbdata = { s with fbptr := BitVec.ofNat 8 ((s.fbptr.toNat + 1) % 256) } := by
  have hsucc : BitVec.ofNat 8 ((s.fbptr.toNat + 1) % 256) = s.fbptr + 1 := (succ_eq_ofNat_mod s.fbptr).symm
  rw [hsucc]
  simp [State.movePointer, hb]

/-- A position below FBLEN is its own remainder modulo the capacity of FB. -/
theorem fbWindow_below {s : State} (hcap : s.fb.length ≤ 128) (h : s.fbptr.toNat < s.fb.length) :
    s.fbWindow = some s.fb[s.fbptr.toNat] := by
  have hmod : s.fbptr.toNat % Param.fbCap = s.fbptr.toNat := Nat.mod_eq_of_lt (h.trans_le hcap)
  have hlt : s.fbptr.toNat < s.fblen := h
  rw [State.fbWindow, if_pos hlt, hmod, List.getElem?_eq_getElem h]

theorem fbWindow_beyond {s : State} (h : s.fb.length ≤ s.fbptr.toNat) : s.fbWindow = none :=
  if_neg (Nat.not_lt.2 h)

/-! ## The fields of STATUS -/

/-- Bits above the low part of a concatenation are those of its high part. -/
theorem extractLsb'_append_high {n m : Nat} (x : BitVec n) (y : BitVec m) (k l : Nat) :
    (x ++ y).extractLsb' (k + m) l = x.extractLsb' k l := by
  rw [BitVec.extractLsb'_append_eq_of_le (by omega), Nat.add_sub_cancel]

theorem getLsbD_append_high {n m : Nat} (x : BitVec n) (y : BitVec m) (k : Nat) :
    (x ++ y).getLsbD (k + m) = x.getLsbD k := by
  rw [BitVec.getLsbD_append, if_neg (by omega), Nat.add_sub_cancel]

theorem getLsbD_append_low {n : Nat} (x : BitVec n) (b : Bool) : (x ++ BitVec.ofBool b).getLsbD 0 = b := by
  rw [BitVec.getLsbD_append, if_pos (by omega)]
  simp

/-- The four low bits of STATUS lie below its fields. -/
theorem statusWord_fields (s : State) (k l : Nat) :
    s.statusWord.extractLsb' (k + 1 + 1 + 1 + 1) l =
      ((0 : BitVec 5) ++ tstateBits s.tstate ++ errBits s.err).extractLsb' k l := by
  rw [State.statusWord, extractLsb'_append_high _ (BitVec.ofBool s.busy),
    extractLsb'_append_high _ (BitVec.ofBool s.done), extractLsb'_append_high _ (BitVec.ofBool s.flag),
    extractLsb'_append_high _ (0 : BitVec 1)]

theorem statusWord_busy (s : State) : s.statusWord.getLsbD 0 = s.busy := getLsbD_append_low _ _

theorem statusWord_done (s : State) : s.statusWord.getLsbD 1 = s.done :=
  (getLsbD_append_high _ (BitVec.ofBool s.busy) 0).trans (getLsbD_append_low _ _)

theorem statusWord_flag (s : State) : s.statusWord.getLsbD 2 = s.flag :=
  (getLsbD_append_high _ (BitVec.ofBool s.busy) 1).trans <|
    (getLsbD_append_high _ (BitVec.ofBool s.done) 0).trans (getLsbD_append_low _ _)

theorem statusWord_reserved (s : State) : s.statusWord.getLsbD 3 = false :=
  (getLsbD_append_high _ (BitVec.ofBool s.busy) 2).trans <|
    (getLsbD_append_high _ (BitVec.ofBool s.done) 1).trans <|
      (getLsbD_append_high _ (BitVec.ofBool s.flag) 0).trans (getLsbD_append_low _ false)

theorem statusWord_err (s : State) : s.statusWord.extractLsb' 4 4 = errBits s.err :=
  (statusWord_fields s 0 4).trans BitVec.extractLsb'_append_eq_right

theorem statusWord_tstate (s : State) : s.statusWord.extractLsb' 8 3 = tstateBits s.tstate :=
  (statusWord_fields s 4 3).trans <|
    (extractLsb'_append_high _ (errBits s.err) 0 3).trans BitVec.extractLsb'_append_eq_right

theorem statusWord_top (s : State) : s.statusWord.extractLsb' 11 5 = 0 :=
  (statusWord_fields s 7 5).trans <|
    (extractLsb'_append_high _ (errBits s.err) 3 5).trans BitVec.extractLsb'_append_eq_left

/-- Settles O49, by the busy case of a host write. -/
theorem writesAreLostWhileBusy : Obligations.WritesAreLostWhileBusy :=
  fun _ _ _ _ hb he => step_hostWrite_busy hb he

/-- Settles O50: each register by its case of `State.writeReg`. -/
theorem idleWritesReachTheWritableRegisters : Obligations.IdleWritesReachTheWritableRegisters := by
  intro s v rest hb
  refine ⟨fun he => ?_, fun he => ?_, fun he => ?_, fun he => ?_, fun r hr he => ?_⟩
  · exact step_hostWrite_idle hb he (by decide)
  · exact step_hostWrite_idle hb he (by decide)
  · exact step_hostWrite_idle hb he (by decide)
  · exact step_hostWrite_idle hb he (by decide)
  · have hcmd : r ≠ .cmd := by rintro rfl; simp at hr
    rw [step_hostWrite_idle hb he hcmd]
    cases r <;> simp_all [State.writeReg]

/-- Settles O51: a defined read returns the register; the others return a free value of the register's width. -/
theorem hostReadsReturnTheRegisters : Obligations.HostReadsReturnTheRegisters := by
  intro s rest
  refine ⟨fun hb p hp he => ?_, fun hb => ⟨fun p hp he => ?_, fun p hp he => ?_⟩⟩
  · have hread : s.definedRead p.1 = some p.2 ∧ p.1 ≠ .sbdata ∧ p.1 ≠ .fbdata := by
      revert p
      simp [State.definedRead, hb, State.regValue, zext16, State.sblen, State.fblen]
    exact step_readRegister he hread.1 hread.2.1 hread.2.2
  · have hread : s.definedRead p.1 = some p.2 ∧ p.1 ≠ .sbdata ∧ p.1 ≠ .fbdata := by
      revert p
      simp [State.definedRead, hb, readableWhileBusy, State.regValue, zext16]
    exact step_readRegister he hread.1 hread.2.1 hread.2.2
  · have hfree : s.definedRead p.1 = none ∧ regWidth p.1 = p.2 := by
      revert p
      simp [State.definedRead, hb, readableWhileBusy, regWidth]
    refine ⟨s.freeBits (regWidth p.1), hfree.2 ▸ freeBits_lt s _, ?_⟩
    rw [step_hostRead he, hostRead_free (s := { s with env := rest }) hfree.1,
      movePointer_busy (s := { s with env := rest }) hb]
    rfl

/-- Settles O52: the two outcomes of a read by whether SBPTR is below SBLEN, those of a write by the room left. -/
theorem sbdataIsAWindowOnTheStagingBuffer : Obligations.SbdataIsAWindowOnTheStagingBuffer := by
  intro s rest hb
  have hmove := movePointer_sbdata (s := { s with env := rest }) hb
  have hdef : s.definedRead .sbdata = s.sb[s.sbptr.toNat]?.map zext16 := by
    simp [State.definedRead, hb, State.regValue, State.sbWindow]
  refine ⟨fun he => ⟨fun h => ?_, fun h => ⟨(Config.freeValue s.freeCtr).setWidth 8, ?_⟩⟩, fun v he => ?_⟩
  · rw [List.getElem?_eq_getElem h, Option.map_some, zext16_byte] at hdef
    rw [step_hostRead he, hostRead_defined (s := { s with env := rest }) hdef, hmove]
  · rw [List.getElem?_eq_none h, Option.map_none] at hdef
    rw [step_hostRead he, hostRead_free (s := { s with env := rest }) hdef, hmove, ← zext16_byte]
    rfl
  · rw [step_hostWrite_idle hb he (by decide)]
    by_cases h : s.sb.length < 6144
    · simp [State.writeReg, State.writeSbdata, State.fits, State.sblen, State.append, Param.sbCap, h]
    · simp [State.writeReg, State.writeSbdata, State.fits, State.sblen, Param.sbCap, h]

/-- Settles O53: FBPTR below FBLEN is its own remainder modulo 128, the capacity of FB. -/
theorem fbdataIsAWindowOnThePacket : Obligations.FbdataIsAWindowOnThePacket := by
  intro s rest hb hcap he
  have hmove := movePointer_fbdata (s := { s with env := rest }) hb
  have hdef : s.definedRead .fbdata = s.fbWindow.map zext16 := by
    simp [State.definedRead, hb, State.regValue]
  refine ⟨fun h => ?_, fun h => ⟨(Config.freeValue s.freeCtr).setWidth 8, ?_⟩⟩
  · rw [fbWindow_below hcap h, Option.map_some, zext16_byte] at hdef
    rw [step_hostRead he, hostRead_defined (s := { s with env := rest }) hdef, hmove]
  · rw [fbWindow_beyond h, Option.map_none] at hdef
    rw [step_hostRead he, hostRead_free (s := { s with env := rest }) hdef, hmove, ← zext16_byte]
    rfl

/-- Settles O54: STATUS is always readable, and each field of the word is a slice of the concatenation. -/
theorem statusReadsItsFields : Obligations.StatusReadsItsFields := by
  intro s rest he
  have hdef : s.definedRead .status = some s.statusWord := by
    simp [State.definedRead, readableWhileBusy, State.regValue]
  refine ⟨s.statusWord, step_readRegister he hdef (by decide) (by decide), statusWord_busy s, statusWord_done s,
    statusWord_flag s, statusWord_reserved s, ?_, ?_, statusWord_top s⟩
  · rw [statusWord_err]
    cases s.err <;> rfl
  · rw [statusWord_tstate]
    cases s.tstate <;> rfl

/-! ## The block's own steps and the environment -/

/-- Settles O5, by what an accepted command word does. -/
theorem stepRunsTheDecodedCommand : Obligations.StepRunsTheDecodedCommand :=
  fun _ _ _ _ hb he h => step_command hb he h

theorem waitStep_sleeping {s : State} {start : Millis} (h : s.sleeping = some start) :
    s.waitStep = if (s.now - start).toNat < 10 then s else { s with sleeping := none } := by
  simp only [State.waitStep, h, sub32, ge_iff_le, ← Nat.not_lt, ite_not]

/-- Settles O31, by the two outcomes of a wait with a sleep under way. -/
theorem sleepLastsAtLeastTheInterval : Obligations.SleepLastsAtLeastTheInterval := by
  intro s start hb ht hs he
  rw [step_nil he, sequencer_waiting hb ht]
  rw [waitStep_sleeping hs, apply_ite Host.Outcome.next]

/-- Settles O57: the image port by whether EXPORT is staging and can tell the byte. -/
theorem environmentActionsTakeEffect : Obligations.EnvironmentActionsTakeEffect := by
  intro s rest
  refine ⟨fun b he => step_cons he, fun d he => step_cons he, fun r he => step_cons he, fun a b he hwf => ?_⟩
  refine ⟨s.img.put a.toNat b, Memory.put_wf hwf b a.isLt, Memory.get_put_same hwf _ b,
    fun x hx => Memory.get_put_other _ b hx, fun hquiet => ?_, fun hb ht hseen => ?_⟩
  · rw [step_cons he]
    exact congrArg _ (presentByte_quiet (s := { s with env := rest }) hquiet)
  · refine ⟨s.freeBytes s.sb.length, freeBytes_length _ _, ?_⟩
    rw [step_cons he]
    exact congrArg _ (presentByte_seen (s := { s with env := rest }) hb ht hseen)

end Sys2Proof.Proofs
end


section
/-! The invariant: it holds at reset, and every step keeps it. -/

namespace Sys2Proof.Proofs

open Sys2Proof Sys2Proof.Machine Sys2Proof.Safety

/-! ## Command words -/

theorem opcode_of_decodeOpcode {b : Byte} {i : Instr} (h : decodeOpcode b = some i) : b = opcode i := by
  have hb : b.toNat = (opcode i).toNat := by
    unfold decodeOpcode at h
    split at h <;> cases h <;> assumption
  exact BitVec.eq_of_toNat_eq hb

/-- A word that decodes to a command is the command's one word. -/
theorem eq_encode_of_decode {v : Half} {i : Instr} (h : decode v = .ok i) : v = encode i := by
  unfold decode at h
  split at h
  · next hz =>
    split at h
    · next j hj =>
      cases h
      have hop := opcode_of_decodeOpcode hj
      rw [encode, ← hop, concat_bytes]
      apply BitVec.eq_of_toNat_eq
      have hzero : v.toNat / 256 % 256 = 0 := by
        simpa [zeroField, BitVec.extractLsb'_toNat, Nat.shiftRight_eq_div_pow] using congrArg BitVec.toNat hz
      simp [opcodeField, BitVec.extractLsb'_toNat]
      omega
    · cases h
  · cases h

theorem allowedWordEnd_of_decode {v : Half} {i : Instr} (h : decode v = .ok i) (e : ErrCode) (info : BitVec 4) :
    allowedWordEnd v e info = allowedEnd i e info := by
  simp [allowedWordEnd, h]

/-- The three command words that start a transfer. -/
def IsTransferWord (v : Half) : Prop := v = 0x31 ∨ v = 0x32 ∨ v = 0x42

/-- A command that starts a transfer can end normally, or with SendError 1 or 2. -/
theorem allowedWordEnd_transfer {v : Half} (h : IsTransferWord v) :
    allowedWordEnd v .noError 0 = true ∧ allowedWordEnd v .sendError 1 = true ∧
      allowedWordEnd v .sendError 2 = true := by
  rcases h with rfl | rfl | rfl <;> decide

/-! ## Packets -/

/-- The bytes that `FB` can hold: none, a bulk chunk, or a short message. -/
def IsPacket (fb : List Byte) : Prop :=
  fb = [] ∨ (∃ d : List Byte, 1 ≤ d.length ∧ d.length ≤ 126 ∧ fb = bulkPacket d) ∨
    (∃ d : List Byte, 1 ≤ d.length ∧ d.length ≤ 123 ∧ 0x00 ∉ d ∧ fb = shortMessage d)

theorem chunkOf_length (sb : List Byte) (k : Nat) : (chunkOf sb k).length = min 126 (sb.length - 126 * k) := by
  simp [chunkOf]

theorem isPacket_chunk {sb : List Byte} {k : Nat} (h : 126 * k < sb.length) : IsPacket (bulkPacket (chunkOf sb k)) := by
  refine .inr (.inl ⟨chunkOf sb k, ?_, ?_, rfl⟩) <;> rw [chunkOf_length] <;> omega

/-- `FB` holds the chunk number `CHCNT` of `SB`, at `CHOFF` (10_state.md rules R23, R25). -/
def HoldsChunk (s : State) : Prop :=
  s.choff.toNat < s.sb.length ∧ s.choff.toNat = 126 * s.chcnt.toNat ∧ s.fb = bulkPacket (chunkOf s.sb s.chcnt.toNat)

/-! ## Parts of the invariant -/

/-- The part of the invariant that is the same between commands and inside them, in a state in which no byte of a packet
is pending and no delay is under way. -/
structure Poised (s : State) : Prop where
  image : s.img.wf = true
  sbCap : s.sb.length ≤ 6144
  fbPacket : IsPacket s.fb
  opLatch : s.op = s.cmd.extractLsb' 0 8
  retryBudget : s.retry.toNat ≤ 10
  offsets : s.choff.toNat ≤ 6144 ∧ s.chcnt.toNat ≤ 49
  position : s.txpos = 0
  delay : s.sleeping = none

/-- `BUSY` is 1 and the fields that a completion writes into `STATUS` are clear (10_state.md rule R12). -/
structure Executing (s : State) : Prop where
  busy : s.busy = true
  done : s.done = false
  flag : s.flag = false
  err : s.err = .noError

theorem Executing.elim {s : State} {p : Prop} (hx : Executing s) (hb : s.busy = false) : p :=
  absurd (hx.busy.symm.trans hb) (by simp)

/-- No transfer is under way. -/
def NoTransfer (t : TState) : Prop := t ≠ .sending ∧ t ≠ .awaitingAck

/-- A command has been accepted and nothing has been done for it yet. -/
structure Accepted (s : State) : Prop where
  poised : Poised s
  executing : Executing s
  still : NoTransfer s.tstate

theorem executing_of_inv {s : State} (h : Inv s) (hb : s.busy = true) : Executing s := by
  obtain ⟨hd, hf, he⟩ := h.busyClear hb
  exact ⟨hb, hd, hf, he⟩

theorem poised_of_inv {s : State} (h : Inv s) (ht : s.tstate ≠ .sending) (hs : s.sleeping = none) : Poised s :=
  { h with position := h.position.2 ht, delay := hs }

theorem accepted_of_inv {s : State} (h : Inv s) (hb : s.busy = false) (v : Half) : Accepted (s.accept v) := by
  obtain ⟨hsend, hwait⟩ := h.idleState hb
  have hs : s.sleeping = none := by
    by_contra hne
    exact hwait (h.delay hne)
  exact ⟨{ poised_of_inv h hsend hs with opLatch := rfl }, ⟨rfl, rfl, rfl, rfl⟩, hsend, hwait⟩

/-! ## The invariant in each phase of the block -/

/-- Completion: any end that the command can have. -/
theorem inv_finished {s : State} {e : ErrCode} {info : BitVec 4} {r0 r1 : Half} {f : Bool} (h : Poised s)
    (ht : NoTransfer s.tstate)
    (hend : allowedWordEnd s.cmd e info = true ∨
      (s.cmd = 0x42 ∧ s.imageChanged = true ∧ e = .bufferOverflow ∧ info = 1))
    (hflag : f = true → s.cmd = 0x14 ∨ s.cmd = 0x15 ∨ s.cmd = 0x16)
    (hres : e ≠ .noError → e ≠ .sendError → r0 = 0 ∧ r1 = 0 ∧ f = false) : Inv (finished s e info r0 r1 f) :=
  { h with
    busyClear := nofun
    busyCommand := nofun
    idleState := fun _ => ht
    lastEnd := fun _ _ => hend
    freshEnd := nofun
    flagSource := hflag
    errorResults := fun _ => hres
    position := ⟨h.position.trans_le (Nat.zero_le _), fun _ => h.position⟩
    delay := fun hne => absurd h.delay hne
    staging := nofun
    transfer := nofun
    chunk := nofun }

/-- The staging of EXPORT. -/
theorem inv_staging {s : State} (h : Poised s) (hx : Executing s) (ht : s.tstate = .idle) (hc : s.cmd = 0x42)
    (hdive : s.dive.toNat < s.count.toNat)
    (hstable : s.imageChanged = false →
      s.count.toNat = storedDives s.img ∧ s.dive.toNat ≤ (sentinelDistances s.img).length ∧
        s.sb.length = 7 + 17 * s.dive.toNat + segmentEnd s.img s.dive.toNat) : Inv s :=
  { h with
    busyClear := fun _ => ⟨hx.done, hx.flag, hx.err⟩
    busyCommand := fun _ => .inl ⟨ht, hc⟩
    idleState := hx.elim
    lastEnd := hx.elim
    freshEnd := hx.elim
    flagSource := fun hf => by rw [hx.flag] at hf; cases hf
    errorResults := hx.elim
    position := ⟨h.position.trans_le (Nat.zero_le _), fun _ => h.position⟩
    delay := fun hne => absurd h.delay hne
    staging := fun _ _ => ⟨hdive, hstable⟩
    transfer := fun _ hne => absurd ht hne
    chunk := fun _ hne => absurd ht hne }

/-- The transmission of a packet begins. -/
theorem inv_startSending {s : State} (h : Poised s) (hx : Executing s) (hc : IsTransferWord s.cmd) (hfb : s.fb ≠ [])
    (hr : s.retry.toNat < 10) (hchunk : s.cmd ≠ 0x31 → HoldsChunk s) : Inv s.startSending :=
  { h with
    busyClear := fun _ => ⟨hx.done, hx.flag, hx.err⟩
    busyCommand := fun _ => .inr ⟨.inl rfl, hc⟩
    idleState := hx.elim
    lastEnd := hx.elim
    freshEnd := hx.elim
    flagSource := fun hf => by rw [State.startSending_flag, hx.flag] at hf; cases hf
    errorResults := hx.elim
    position := ⟨Nat.zero_le _, fun _ => rfl⟩
    delay := fun hne => absurd rfl hne
    staging := nofun
    transfer := fun _ _ => ⟨hfb, hr⟩
    chunk := fun _ _ => hchunk }

theorem nextChunk_more {s : State} (h : s.choff.toNat < s.sb.length) :
    s.nextChunk = State.startSending { s with fb := bulkPacket ((s.sb.drop s.choff.toNat).take 126) } := by
  rw [← chunkPacket_eq]
  exact if_pos h

theorem nextChunk_done {s : State} (h : ¬ s.choff.toNat < s.sb.length) :
    s.nextChunk = finished { s with tstate := .done } .noError 0 (zext16 s.chcnt) (zext16 s.choff) false :=
  if_neg h

/-- The loop head of a bulk transfer: the next chunk is sent, or none is left and the command is done. -/
theorem inv_nextChunk {s : State} (h : Poised s) (hx : Executing s) (hc : IsTransferWord s.cmd)
    (hr : s.retry.toNat < 10) (hoff : s.choff.toNat < s.sb.length → s.choff.toNat = 126 * s.chcnt.toNat) :
    Inv s.nextChunk := by
  by_cases hlt : s.choff.toNat < s.sb.length
  · have hk := hoff hlt
    have hpacket : IsPacket (bulkPacket (chunkOf s.sb s.chcnt.toNat)) := isPacket_chunk (hk ▸ hlt)
    have hne : bulkPacket (chunkOf s.sb s.chcnt.toNat) ≠ [] := by simp [bulkPacket]
    rw [nextChunk_more hlt, hk]
    exact inv_startSending { h with fbPacket := hpacket } { hx with } hc hne hr fun _ => ⟨hlt, hk, rfl⟩
  · rw [nextChunk_done hlt]
    exact inv_finished { h with } (by simp [NoTransfer]) (.inl (allowedWordEnd_transfer hc).1) nofun
      fun hne => absurd rfl hne

theorem inv_beginBulk {s : State} (h : Poised s) (hx : Executing s) (hc : IsTransferWord s.cmd) : Inv s.beginBulk :=
  inv_nextChunk { h with retryBudget := by simp, offsets := by simp } { hx with } hc (by simp) fun _ => by simp

/-! ## The commands -/

/-- The invariant holds of the next state, if there is one. -/
def Keeps (r : Result) : Prop := ∀ t, r = .next t → Inv t

theorem keeps_next {t : State} (h : Inv t) : Keeps (.next t) := by
  rintro _ ⟨rfl⟩
  exact h

theorem keeps_orFault {α : Type} {r : Except Fault α} {k : α → Result} (h : ∀ v, Keeps (k v)) :
    Keeps (orFault r k) := by
  cases r with
  | ok v => exact h v
  | error f => intro t ht; cases ht

theorem keeps_succeed {s : State} {i : Instr} (h : Accepted s) (hd : decode s.cmd = .ok i) (r0 r1 : Half) {f : Bool}
    (hf : f = true → i = .proffind ∨ i = .logvalid ∨ i = .profvalid) : Keeps (.next (s.succeed r0 r1 f)) := by
  refine keeps_next (inv_finished (s := s) h.poised h.still (.inl ?_) (fun hft => ?_) fun hne => absurd rfl hne)
  · rw [allowedWordEnd_of_decode hd]
    rfl
  · rw [eq_encode_of_decode hd]
    rcases hf hft with rfl | rfl | rfl <;> decide

/-- A command that reads the image and returns one result. -/
theorem keeps_query {s : State} {i : Instr} (h : Accepted s) (hd : decode s.cmd = .ok i) {α : Type} (r : Except Fault α)
    (result : α → Half) : Keeps (orFault r fun v => .next (s.succeed (result v) 0 false)) :=
  keeps_orFault fun _ => keeps_succeed h hd _ _ (by simp)

theorem keeps_reject {s : State} {i : Instr} (h : Accepted s) (hd : decode s.cmd = .ok i) {e : ErrCode}
    {info : BitVec 4} (hend : allowedEnd i e info = true) : Keeps (.next (s.reject e info)) := by
  refine keeps_next (inv_finished (s := s) h.poised h.still (.inl ?_) nofun fun _ _ => ⟨rfl, rfl, rfl⟩)
  rw [allowedWordEnd_of_decode hd, hend]

theorem fits_iff (s : State) (k : Nat) : s.fits k = true ↔ s.sb.length + k ≤ 6144 := decide_eq_true_iff

theorem accepted_staged {s : State} (h : Accepted s) {sb : List Byte} (hlen : sb.length ≤ 6144) (p : BitVec 13) :
    Accepted { s with sb := sb, sbptr := p } :=
  ⟨{ h.poised with sbCap := hlen }, { h.executing with }, h.still⟩

theorem accepted_append {s : State} (h : Accepted s) {bs : List Byte} (hfits : s.fits bs.length = true) :
    Accepted (s.append bs) := by
  rw [fits_iff] at hfits
  exact accepted_staged h (by rw [List.length_append]; exact hfits) s.sbptr

theorem keeps_logidx {s : State} (h : Accepted s) (hd : decode s.cmd = .ok .logidx) : Keeps (execLogidx s) := by
  unfold execLogidx
  split
  · exact keeps_reject h hd rfl
  · exact keeps_query h hd _ _

theorem keeps_proffind {s : State} (h : Accepted s) (hd : decode s.cmd = .ok .proffind) : Keeps (execProffind s) := by
  unfold execProffind
  split
  · exact keeps_reject h hd rfl
  · refine keeps_orFault fun found => ?_
    cases found with
    | none => exact keeps_succeed h hd _ _ (by simp)
    | some p => exact keeps_succeed h hd _ _ (by simp)

theorem keeps_wrlog {s : State} (h : Accepted s) (hd : decode s.cmd = .ok .wrlog) : Keeps (execWrlog s) := by
  unfold execWrlog
  split
  · next hfits =>
    rw [logbookEntry_eq, orFault_ok]
    exact keeps_succeed (accepted_append h (bs := entryBytes _ _) hfits) hd _ _ (by simp)
  · exact keeps_reject h hd rfl

theorem keeps_wrprof {s : State} (h : Accepted s) (hd : decode s.cmd = .ok .wrprof) : Keeps (execWrprof s) := by
  unfold execWrprof
  split
  · exact keeps_reject h hd rfl
  · next hring =>
    split
    · next hfits =>
      rw [profileSamples_eq _ _ (Nat.not_le.1 hring), orFault_ok]
      rw [← sampleBytes_length s.img s.indexOperand s.countOperand] at hfits
      exact keeps_succeed (accepted_append h hfits) hd _ _ (by simp)
    · exact keeps_reject h hd rfl

theorem keeps_wrident {s : State} (h : Accepted s) (hd : decode s.cmd = .ok .wrident) : Keeps (execWrident s) := by
  unfold execWrident
  split
  · next hfits =>
    rw [deviceIdentity_eq, orFault_ok]
    exact keeps_succeed (accepted_append h (bs := identityBytes _) hfits) hd _ _ (by simp)
  · exact keeps_reject h hd rfl

theorem keeps_msgenc {s : State} (h : Accepted s) (hd : decode s.cmd = .ok .msgenc) : Keeps (execMsgenc s) := by
  have hfb : ∀ fb, IsPacket fb → Accepted { s with fb := fb, fbptr := 0 } := fun fb hp =>
    ⟨{ h.poised with fbPacket := hp }, { h.executing with }, h.still⟩
  unfold execMsgenc
  split
  · exact keeps_succeed (hfb [] (.inl rfl)) hd _ _ (by simp)
  · next hpos =>
    split
    · exact keeps_reject h hd rfl
    · next hmax =>
      split
      · exact keeps_reject h hd rfl
      · next hzero =>
        have hmem : (0x00 : Byte) ∉ s.sb := by simpa using hzero
        have hmsg : IsPacket (messageFrame s.sb) :=
          .inr (.inr ⟨s.sb, Nat.pos_of_ne_zero hpos, Nat.not_lt.1 hmax, hmem, messageFrame_eq _⟩)
        exact keeps_succeed (hfb _ hmsg) hd _ _ (by simp)

theorem keeps_envopen {s : State} (h : Accepted s) (hd : decode s.cmd = .ok .envopen) : Keeps (execEnvopen s) := by
  rw [execEnvopen, headerBytes_eq, orFault_ok]
  exact keeps_succeed (accepted_staged h (sb := openHeader s.img) (by simp [openHeader_length]) 0) hd _ _ (by simp)

theorem keeps_envclose {s : State} (h : Accepted s) (hd : decode s.cmd = .ok .envclose) : Keeps (execEnvclose s) := by
  unfold execEnvclose
  split
  · exact keeps_reject h hd rfl
  · next hsize =>
    split
    · next hfits =>
      rw [fits_iff, ← closed_length s.sb (Nat.not_lt.1 hsize)] at hfits
      rw [closeEnvelope_eq]
      exact keeps_succeed (accepted_staged h hfits s.sbptr) hd _ _ (by simp)
    · exact keeps_reject h hd rfl

theorem keeps_pktsend {s : State} (h : Accepted s) (hd : decode s.cmd = .ok .pktsend) : Keeps (execPktsend s) := by
  have hcmd : s.cmd = 0x31 := eq_encode_of_decode hd
  have hpoised : Poised { s with retry := 0 } := { h.poised with retryBudget := by simp }
  unfold execPktsend
  split
  · have hdone : Accepted { s with retry := 0, tstate := .done } :=
      ⟨{ hpoised with }, { h.executing with }, by simp [NoTransfer]⟩
    exact keeps_succeed hdone hd _ _ (by simp)
  · next hne =>
    have hfb : s.fb ≠ [] := fun he => hne (by simp [State.fblen, he])
    exact keeps_next <| inv_startSending hpoised { h.executing with } (.inl hcmd) hfb (by simp)
      fun hne => absurd hcmd hne

theorem keeps_bulksend {s : State} (h : Accepted s) (hd : decode s.cmd = .ok .bulksend) : Keeps (execBulksend s) :=
  keeps_next (inv_beginBulk h.poised h.executing (.inr (.inl (eq_encode_of_decode hd))))

/-- The state in which EXPORT has staged the envelope's header and read the number of dives. -/
def exportOpened (s : State) : State :=
  { s with
    tstate := .idle, dive := 0, imageChanged := false, sb := openHeader s.img, sbptr := 0,
    count := BitVec.ofNat 8 (storedDives s.img) }

theorem execExport_eq (s : State) :
    execExport s =
      if storedDives s.img = 0 then .next ((exportOpened s).reject .diveCountNull 0)
      else .next (exportOpened s) := by
  rw [execExport, headerBytes_eq, orFault_ok, storedDiveCount_eq, orFault_ok]
  rfl

theorem storedDives_lt (m : Memory) : storedDives m < 256 := (m.get 0x7F5).isLt

theorem keeps_export {s : State} (h : Accepted s) (hd : decode s.cmd = .ok .exportRun) : Keeps (execExport s) := by
  have hpoised : Poised (exportOpened s) :=
    { h.poised with sbCap := by simp [exportOpened, openHeader_length] }
  have hx : Executing (exportOpened s) := { h.executing with }
  have hcount : (exportOpened s).count.toNat = storedDives s.img := Nat.mod_eq_of_lt (storedDives_lt s.img)
  rw [execExport_eq]
  split
  · exact keeps_reject ⟨hpoised, hx, by simp [exportOpened, NoTransfer]⟩ hd rfl
  · next hne =>
    refine keeps_next (inv_staging hpoised hx rfl (eq_encode_of_decode hd) ?_ fun _ => ⟨hcount, Nat.zero_le _, rfl⟩)
    rw [hcount]
    exact Nat.pos_of_ne_zero hne

/-- Every accepted command keeps the invariant. -/
theorem keeps_exec {s : State} {i : Instr} (h : Accepted s) (hd : decode s.cmd = .ok i) : Keeps (exec i s) := by
  cases i with
  | sbclr => exact keeps_succeed (accepted_staged h (sb := []) (by simp) 0) hd _ _ (by simp)
  | totcnt => exact keeps_query h hd (totalDiveCount s.img) (BitVec.ofNat 16)
  | stocnt => exact keeps_query h hd (storedDiveCount s.img) (BitVec.ofNat 16)
  | logidx => exact keeps_logidx h hd
  | profend => exact keeps_query h hd (depthProfileEndIndex s.img) (BitVec.ofNat 16)
  | proffind => exact keeps_proffind h hd
  | logvalid => exact keeps_succeed h hd _ _ (by simp)
  | profvalid => exact keeps_succeed h hd _ _ (by simp)
  | wrlog => exact keeps_wrlog h hd
  | wrprof => exact keeps_wrprof h hd
  | wrident => exact keeps_wrident h hd
  | msgenc => exact keeps_msgenc h hd
  | pktsend => exact keeps_pktsend h hd
  | bulksend => exact keeps_bulksend h hd
  | envopen => exact keeps_envopen h hd
  | envclose => exact keeps_envclose h hd
  | exportRun => exact keeps_export h hd

/-- An accepted command word keeps the invariant, a legal one or not. -/
theorem keeps_issueCommand {s : State} (h : Inv s) (hb : s.busy = false) (v : Half) : Keeps (issueCommand s v) := by
  have ha := accepted_of_inv h hb v
  cases hd : decode v with
  | ok i =>
    rw [issueCommand_ok hd]
    exact keeps_exec ha hd
  | error w =>
    rw [issueCommand_error hd]
    refine keeps_next <| inv_finished (s := s.accept v) ha.poised ha.still (.inl ?_) nofun
      fun _ _ => ⟨rfl, rfl, rfl⟩
    cases w <;> simp [allowedWordEnd, hd, illegalInfo]

/-! ## The staging of EXPORT -/

theorem segmentEnd_succ {m : Memory} {n d : Nat} (h : (sentinelDistances m)[n]? = some d) :
    segmentEnd m (n + 1) = d := by
  simp [segmentEnd, List.getD_eq_getElem?_getD, h]

theorem segmentEnd_le (m : Memory) {n : Nat} (h : n ≤ (sentinelDistances m).length) : segmentEnd m n ≤ 0x5FF := by
  cases n with
  | zero => simp [segmentEnd]
  | succ k =>
    have hk : (sentinelDistances m)[k]? = some (sentinelDistances m)[k] := List.getElem?_eq_getElem h
    rw [segmentEnd_succ hk]
    exact (sentinelDistances_mem (List.getElem_mem h)).2.1

theorem exists_distance {m : Memory} {n : Nat} {p : Nat × Nat} (h : profileSegment m n = some p) :
    ∃ d, (sentinelDistances m)[n]? = some d := by
  unfold profileSegment at h
  obtain ⟨d, hd, -⟩ := Option.map_eq_some_iff.1 h
  exact ⟨d, hd⟩

/-- The staging of EXPORT is at the dive in `DIVE`. -/
structure AtDive (s : State) : Prop where
  poised : Poised s
  executing : Executing s
  idle : s.tstate = .idle
  cmd : s.cmd = 0x42
  dive : s.dive.toNat < s.count.toNat

theorem atDive_of_inv {s : State} (h : Inv s) (hb : s.busy = true) (ht : s.tstate = .idle) : AtDive s := by
  have hsend : s.tstate ≠ .sending := by simp [ht]
  have hsleep : s.sleeping = none := by
    by_contra hne
    have := h.delay hne
    simp [ht] at this
  have hcmd : s.cmd = 0x42 := by
    rcases h.busyCommand hb with ⟨-, hc⟩ | ⟨hs | hw, -⟩
    · exact hc
    · exact absurd hs hsend
    · simp [ht] at hw
  exact ⟨poised_of_inv h hsend hsleep, executing_of_inv h hb, ht, hcmd, (h.staging hb ht).1⟩

/-- An EXPORT that stops while it is staging. -/
theorem keeps_stopped {s : State} (h : AtDive s) {e : ErrCode} {info : BitVec 4} {sb : List Byte}
    (hlen : sb.length ≤ 6144) (k : Nat)
    (hend : allowedWordEnd s.cmd e info = true ∨
      (s.cmd = 0x42 ∧ s.imageChanged = true ∧ e = .bufferOverflow ∧ info = 1)) :
    Keeps (.next (State.reject { s with sb := sb, freeCtr := k } e info)) :=
  keeps_next <| inv_finished (s := { s with sb := sb, freeCtr := k }) { h.poised with sbCap := hlen }
    (by simp [NoTransfer, h.idle]) hend nofun fun _ _ => ⟨rfl, rfl, rfl⟩

theorem dive_succ {s : State} (h : s.dive.toNat + 1 < s.count.toNat) : (s.dive + 1).toNat = s.dive.toNat + 1 := by
  have := s.count.isLt
  rw [BitVec.toNat_add]
  exact Nat.mod_eq_of_lt (by simp; omega)

/-- A staged record: the next dive, or the closed envelope's first chunk. -/
theorem inv_afterDive {s : State} (h : AtDive s) {record : List Byte}
    (hroom : s.sb.length + record.length + (if s.lastDive then 1 else 0) ≤ 6144) (htwo : 2 ≤ record.length)
    (hstable : s.imageChanged = false → s.count.toNat = storedDives s.img ∧
      s.dive.toNat + 1 ≤ (sentinelDistances s.img).length ∧
      s.sb.length + record.length = 7 + 17 * (s.dive.toNat + 1) + segmentEnd s.img (s.dive.toNat + 1)) :
    Inv (afterDive s record) := by
  have hlast : s.lastDive = true ↔ ¬ s.dive.toNat + 1 < s.count.toNat := by
    rw [State.lastDive, decide_eq_true_iff, Nat.not_lt]
  unfold afterDive
  split
  · next hmore =>
    rw [if_neg (fun hl => hlast.1 hl hmore)] at hroom
    refine inv_staging { h.poised with sbCap := by simpa using hroom } { h.executing with } h.idle h.cmd ?_ ?_
    · rw [dive_succ hmore]
      exact hmore
    · intro hi
      rw [dive_succ hmore, List.length_append]
      exact hstable hi
  · next hmore =>
    rw [if_pos (hlast.2 hmore)] at hroom
    have hclosed : (closed (s.sb ++ record)).length ≤ 6144 := by
      rw [closed_length _ (by rw [List.length_append]; omega), List.length_append]
      exact hroom
    have hpos : 126 * 0 < (closed (s.sb ++ record)).length := by simp [closed]
    exact inv_startSending
      (s := { s with
        sb := closed (s.sb ++ record), retry := 0, choff := 0, chcnt := 0,
        fb := bulkPacket (chunkOf (closed (s.sb ++ record)) 0) })
      { h.poised with
        sbCap := hclosed, retryBudget := by simp, offsets := by simp, fbPacket := isPacket_chunk hpos }
      { h.executing with } (.inr (.inr h.cmd)) (by simp [bulkPacket]) (by simp) fun _ => ⟨hpos, rfl, rfl⟩

theorem keeps_stageStep {s : State} (h : Inv s) (hb : s.busy = true) (ht : s.tstate = .idle) : Keeps s.stageStep := by
  have hat := atDive_of_inv h hb ht
  cases hi : s.imageChanged with
  | false =>
    obtain ⟨hcount, hdives, hlen⟩ := (h.staging hb ht).2 hi
    have hend := segmentEnd_le s.img hdives
    have hdive := hat.dive
    have hlt := storedDives_lt s.img
    rw [stageStep_eq s hi]
    cases hp : profileSegment s.img s.dive.toNat with
    | none =>
      refine keeps_stopped hat ?_ s.freeCtr (.inl (by rw [hat.cmd]; rfl))
      rw [List.length_append, recordHead_length]
      omega
    | some p =>
      obtain ⟨d, hd⟩ := exists_distance hp
      have hrecord := diveRecord_length hd
      have hbefore := segmentEnd_lt hd
      have hmem := sentinelDistances_mem (List.mem_of_getElem? hd)
      have hn := (List.getElem?_eq_some_iff.1 hd).1
      refine keeps_next (inv_afterDive hat ?_ (by omega) fun _ => ⟨hcount, hn, ?_⟩)
      · split <;> omega
      · rw [segmentEnd_succ hd]
        omega
  | true =>
    obtain ⟨head, samples, k, hhead, -, hstop | hstaged | hfull⟩ := stageStep_changed s hi
    · obtain ⟨hroom, hstep⟩ := hstop
      rw [hstep]
      exact keeps_stopped hat (by rw [List.length_append, hhead]; exact hroom) k (.inl (by rw [hat.cmd]; rfl))
    · obtain ⟨hroom, hstep⟩ := hstaged
      have hrecord : (head ++ littleEndian samples.length ++ samples).length = 18 + samples.length := by
        rw [List.length_append, List.length_append, hhead, littleEndian_length]
      rw [hstep]
      refine keeps_next (inv_afterDive (s := { s with freeCtr := k })
        ⟨{ hat.poised with }, { hat.executing with }, ht, hat.cmd, hat.dive⟩ ?_ ?_ ?_)
      · rw [hrecord, ← Nat.add_assoc]
        exact hroom
      · omega
      · intro hne
        exact absurd (hi.symm.trans hne) (by simp)
    · obtain ⟨-, hstep⟩ := hfull
      rw [hstep]
      exact keeps_stopped hat h.sbCap k (.inr ⟨hat.cmd, hi, rfl, rfl⟩)

/-! ## The transfer -/

/-- A packet has been sent and the next step is a poll for its answer. -/
structure Polling (s : State) : Prop where
  poised : Poised s
  executing : Executing s
  waiting : s.tstate = .awaitingAck
  word : IsTransferWord s.cmd
  packet : s.fb ≠ []
  budget : s.retry.toNat < 10
  chunk : s.cmd ≠ 0x31 → HoldsChunk s

theorem transferWord_of_inv {s : State} (h : Inv s) (hb : s.busy = true) (ht : s.tstate ≠ .idle) :
    IsTransferWord s.cmd := by
  rcases h.busyCommand hb with ⟨hi, -⟩ | ⟨-, hc⟩
  · exact absurd hi ht
  · exact hc

theorem polling_of_inv {s : State} (h : Inv s) (hb : s.busy = true) (ht : s.tstate = .awaitingAck)
    (hs : s.sleeping = none) : Polling s := by
  have hidle : s.tstate ≠ .idle := by simp [ht]
  obtain ⟨hfb, hretry⟩ := h.transfer hb hidle
  exact ⟨poised_of_inv h (by simp [ht]) hs, executing_of_inv h hb, ht, transferWord_of_inv h hb hidle, hfb, hretry,
    h.chunk hb hidle⟩

theorem sendsOnePacket_iff {s : State} (h : Poised s) (hc : IsTransferWord s.cmd) :
    s.sendsOnePacket = true ↔ s.cmd = 0x31 := by
  have hop := h.opLatch
  rw [State.sendsOnePacket, beq_iff_eq]
  rcases hc with hc | hc | hc <;> rw [hop, hc] <;> decide

/-- The offset after an acknowledged chunk, and what is left to send. -/
theorem offset_after_chunk {s : State} (h : Polling s) (hc : s.cmd ≠ 0x31) :
    (s.choff + BitVec.ofNat 13 (s.fblen - 2)).toNat = min (126 * (s.chcnt.toNat + 1)) s.sb.length ∧
      (s.chcnt + 1).toNat = s.chcnt.toNat + 1 ∧ 126 * s.chcnt.toNat < s.sb.length := by
  obtain ⟨hlt, hk, hfb⟩ := h.chunk hc
  have hcap := h.poised.sbCap
  have hlen : s.fblen - 2 = min 126 (s.sb.length - 126 * s.chcnt.toNat) := by
    rw [State.fblen, hfb, bulkPacket_length, chunkOf_length, Nat.add_sub_cancel]
  rw [hlen, BitVec.toNat_add, BitVec.toNat_ofNat, BitVec.toNat_add, hk]
  refine ⟨?_, ?_, hk ▸ hlt⟩
  · omega
  · simp
    omega

theorem inv_onAck {s : State} (h : Polling s) : Inv s.onAck := by
  by_cases hc : s.cmd = 0x31
  · rw [State.onAck, if_pos ((sendsOnePacket_iff h.poised h.word).2 hc)]
    exact inv_finished (s := { s with retry := 0, tstate := .done }) { h.poised with retryBudget := by simp }
      (by simp [NoTransfer]) (.inl (allowedWordEnd_transfer h.word).1) nofun fun hne => absurd rfl hne
  · obtain ⟨hoff, hcnt, hlt⟩ := offset_after_chunk h hc
    have hcap := h.poised.sbCap
    have hbounds : (s.choff + BitVec.ofNat 13 (s.fblen - 2)).toNat ≤ 6144 ∧ (s.chcnt + 1).toNat ≤ 49 := by
      rw [hoff, hcnt]
      omega
    have hnext : (s.choff + BitVec.ofNat 13 (s.fblen - 2)).toNat < s.sb.length →
        (s.choff + BitVec.ofNat 13 (s.fblen - 2)).toNat = 126 * (s.chcnt + 1).toNat := by
      rw [hoff, hcnt]
      omega
    rw [State.onAck, if_neg (fun hp => hc ((sendsOnePacket_iff h.poised h.word).1 hp))]
    exact inv_nextChunk { h.poised with retryBudget := by simp, offsets := hbounds } { h.executing with } h.word
      (by simp) hnext

/-- A transfer given up: SendError with sub-cause 1 or 2. -/
theorem inv_failTransfer {s : State} (h : Poised s) (hc : IsTransferWord s.cmd) {sub : BitVec 4}
    (hsub : sub = 1 ∨ sub = 2) : Inv (s.failTransfer sub) := by
  have hfail : ∃ r0 r1, s.failTransfer sub = finished { s with tstate := .failed } .sendError sub r0 r1 false := by
    unfold State.failTransfer
    split
    · exact ⟨0, 0, rfl⟩
    · exact ⟨zext16 s.chcnt, zext16 s.choff, rfl⟩
  have hend : allowedWordEnd s.cmd .sendError sub = true := by
    rcases hsub with rfl | rfl
    · exact (allowedWordEnd_transfer hc).2.1
    · exact (allowedWordEnd_transfer hc).2.2
  obtain ⟨r0, r1, hfail⟩ := hfail
  rw [hfail]
  exact inv_finished { h with } (by simp [NoTransfer]) (.inl hend) nofun fun _ hne => absurd rfl hne

theorem onNak_last {s : State} (h : (s.retry + 1).toNat = 10) :
    s.onNak = State.failTransfer { s with retry := s.retry + 1 } 2 := if_pos h

theorem onNak_again {s : State} (h : ¬ (s.retry + 1).toNat = 10) :
    s.onNak = State.startSending { s with retry := s.retry + 1 } := if_neg h

theorem inv_onNak {s : State} (h : Polling s) : Inv s.onNak := by
  have hbudget := h.budget
  have hsucc : (s.retry + 1).toNat = s.retry.toNat + 1 := by
    rw [BitVec.toNat_add]
    exact Nat.mod_eq_of_lt (by simp; omega)
  have hpoised : Poised { s with retry := s.retry + 1 } :=
    { h.poised with retryBudget := by rw [hsucc]; exact hbudget }
  by_cases hlast : (s.retry + 1).toNat = 10
  · rw [onNak_last hlast]
    exact inv_failTransfer hpoised h.word (.inr rfl)
  · have hlt : (s.retry + 1).toNat < 10 := by omega
    rw [onNak_again hlast]
    exact inv_startSending hpoised { h.executing with } h.word h.packet hlt h.chunk

theorem inv_timeoutOrSleep {s : State} (h : Inv s) (hp : Polling s) : Inv s.timeoutOrSleep := by
  unfold State.timeoutOrSleep
  split
  · exact inv_failTransfer hp.poised hp.word (.inl rfl)
  · exact { h with delay := fun _ => hp.waiting }

theorem inv_pollStep {s : State} (h : Inv s) (hb : s.busy = true) (ht : s.tstate = .awaitingAck)
    (hs : s.sleeping = none) : Inv s.pollStep := by
  unfold State.pollStep
  split
  · exact inv_timeoutOrSleep h (polling_of_inv h hb ht hs)
  · next b rest _ =>
    have hrest : Inv { s with rx := rest } := { h with }
    have hp := polling_of_inv hrest hb ht hs
    cases hclass : classify b with
    | ack => exact inv_onAck hp
    | noise => exact inv_timeoutOrSleep hrest hp
    | nak => exact inv_onNak hp

theorem inv_waitStep {s : State} (h : Inv s) (hb : s.busy = true) (ht : s.tstate = .awaitingAck) : Inv s.waitStep := by
  cases hs : s.sleeping with
  | none =>
    rw [waitStep_poll hs]
    exact inv_pollStep h hb ht hs
  | some start =>
    rw [waitStep_sleeping hs]
    split
    · exact h
    · exact { h with delay := fun hne => absurd rfl hne }

theorem inv_enterWait {s : State} (h : Inv s) (hb : s.busy = true) (ht : s.tstate = .sending) : Inv s.enterWait :=
  have hidle : s.tstate ≠ .idle := by simp [ht]
  { h with
    busyCommand := fun _ => .inr ⟨.inr rfl, transferWord_of_inv (s := s) h hb hidle⟩
    idleState := (executing_of_inv h hb).elim
    position := ⟨Nat.zero_le _, fun _ => rfl⟩
    delay := fun _ => rfl
    staging := nofun
    transfer := fun _ _ => h.transfer hb hidle
    chunk := fun _ _ => h.chunk hb hidle }

theorem inv_emitStep {s : State} (h : Inv s) (hb : s.busy = true) (ht : s.tstate = .sending) : Inv s.emitStep := by
  cases hbyte : s.fb[s.txpos]? with
  | none =>
    rw [emitStep_end (List.getElem?_eq_none_iff.1 hbyte)]
    exact inv_enterWait h hb ht
  | some b =>
    have hlt := (List.getElem?_eq_some_iff.1 hbyte).1
    simp only [State.emitStep, hbyte]
    split
    · exact { h with position := ⟨hlt, fun hne => absurd ht hne⟩ }
    · exact h

/-! ## The steps -/

theorem keeps_sequencerStep {s : State} (h : Inv s) : Keeps s.sequencerStep := by
  cases hb : s.busy with
  | false =>
    rw [sequencer_idle hb]
    exact keeps_next h
  | true =>
    cases ht : s.tstate with
    | idle =>
      rw [sequencer_staging hb ht]
      exact keeps_stageStep h hb ht
    | sending =>
      rw [sequencer_sending hb ht]
      exact keeps_next (inv_emitStep h hb ht)
    | awaitingAck =>
      rw [sequencer_waiting hb ht]
      exact keeps_next (inv_waitStep h hb ht)
    | done =>
      simp only [State.sequencerStep, hb, ht, if_true]
      exact keeps_next h
    | failed =>
      simp only [State.sequencerStep, hb, ht, if_true]
      exact keeps_next h

theorem inv_hostRead {s : State} (h : Inv s) (r : HostReg) : Inv (s.hostRead r) := by
  have hmove : Inv (s.movePointer r) := by
    unfold State.movePointer
    split
    · exact h
    · split
      · exact { h with }
      · exact { h with }
      · exact h
  unfold State.hostRead
  split
  · exact { hmove with }
  · exact { hmove with }

/-- A write of SBDATA appends only where a byte fits. -/
theorem inv_writeSbdata {s : State} (h : Inv s) (hb : s.busy = false) (v : Half) : Inv (s.writeSbdata v) := by
  unfold State.writeSbdata
  split
  · next hfits =>
    exact { h with
      sbCap := by rw [fits_iff] at hfits; simpa using hfits
      staging := fun hb' => absurd (hb.symm.trans hb') (by simp)
      chunk := fun hb' => absurd (hb.symm.trans hb') (by simp) }
  · exact h

theorem inv_writeReg {s : State} (h : Inv s) (hb : s.busy = false) (r : HostReg) (v : Half) : Inv (s.writeReg r v) := by
  unfold State.writeReg
  split
  · exact { h with }
  · exact { h with }
  · exact { h with }
  · exact inv_writeSbdata h hb v
  · exact { h with }
  · exact h

theorem keeps_hostWrite {s : State} (h : Inv s) (r : HostReg) (v : Half) : Keeps (hostWrite s r v) := by
  unfold hostWrite
  split
  · exact keeps_next h
  · next hbusy =>
    have hb : s.busy = false := by simpa using hbusy
    split
    · exact keeps_issueCommand h hb v
    · exact keeps_next (inv_writeReg h hb r v)

/-- Settles O59: every field is a fact about a literal state. -/
theorem invariantHoldsAtReset : Obligations.InvariantHoldsAtReset where
  image := rfl
  sbCap := Nat.zero_le _
  fbPacket := .inl rfl
  opLatch := rfl
  retryBudget := Nat.zero_le _
  offsets := ⟨Nat.zero_le _, Nat.zero_le _⟩
  busyClear := nofun
  busyCommand := nofun
  idleState := fun _ => by simp [State.reset]
  lastEnd := nofun
  freshEnd := fun _ _ => ⟨rfl, rfl⟩
  flagSource := nofun
  errorResults := fun _ hne => absurd rfl hne
  position := ⟨Nat.zero_le _, fun _ => rfl⟩
  delay := fun hne => absurd rfl hne
  staging := nofun
  transfer := nofun
  chunk := nofun

theorem inv_resetBlock {s : State} (h : Inv s) : Inv s.resetBlock :=
  have hreset : Inv State.reset := invariantHoldsAtReset
  { hreset with image := h.image, staging := nofun }

/-- A byte at the image port: EXPORT cannot tell it, or whatever it has staged becomes free. -/
theorem inv_presentByte {s : State} (h : Inv s) (a : BitVec 11) (b : Byte) : Inv (s.presentByte a.toNat b) := by
  have hwf : (s.img.put a.toNat b).wf = true := Memory.put_wf h.image b a.isLt
  by_cases hseen : s.busy = true ∧ s.tstate = .idle ∧ exportTells a.toNat (s.img.get a.toNat) b
  · obtain ⟨hb, ht, htells⟩ := hseen
    have hat := atDive_of_inv h hb ht
    rw [presentByte_seen hb ht htells]
    exact inv_staging { hat.poised with image := hwf, sbCap := by rw [freeBytes_length]; exact h.sbCap }
      { hat.executing with } ht hat.cmd hat.dive nofun
  · rw [presentByte_quiet hseen]
    refine { h with image := hwf, staging := fun hb ht => ?_ }
    obtain ⟨hdives, hdist⟩ := put_untold h.image fun htells => hseen ⟨hb, ht, htells⟩
    obtain ⟨hdive, hstable⟩ := h.staging hb ht
    refine ⟨hdive, fun hi => ?_⟩
    rw [hdives, hdist]
    simpa only [segmentEnd, hdist] using hstable hi

theorem keeps_act {s : State} (h : Inv s) (e : Event) : Keeps (act s e) := by
  cases e with
  | hostWrite r v => exact keeps_hostWrite h r v
  | hostRead r => exact keeps_next (inv_hostRead h r)
  | rst => exact keeps_next (inv_resetBlock h)
  | arrive b => exact keeps_next { h with }
  | advance d => exact keeps_next { h with }
  | txReady ready => exact keeps_next { h with }
  | imageByte a b => exact keeps_next (inv_presentByte h a b)
  | turn => exact keeps_sequencerStep h

/-- Settles O60: by the environment's next action, or the sequencer's turn when there is none. -/
theorem stepKeepsTheInvariant : Obligations.StepKeepsTheInvariant := by
  intro s t h hstep
  cases he : s.env with
  | nil =>
    rw [step_nil he] at hstep
    exact keeps_sequencerStep h t hstep
  | cons e rest =>
    have hrest : Inv { s with env := rest } := { h with }
    rw [step_cons he] at hstep
    exact keeps_act hrest e t hstep

end Sys2Proof.Proofs
end


section
/-! The image bytes that no rule reads: no command and no step of the sequencer depends on them. -/

namespace Sys2Proof.Proofs

open Sys2Proof Sys2Proof.Machine Sys2Proof.Safety

/-! ## Images that agree on what the rules read -/

/-- The images hold the same bytes at every address that has a reader (20_memory.md rule R36). -/
def AgreeOnReads (m m' : Memory) : Prop :=
  ∀ a, a < 0x7BD ∨ (0x7ED ≤ a ∧ a ≤ 0x7EF) ∨ (0x7F2 ≤ a ∧ a ≤ 0x7FB) → m.get a = m'.get a

theorem totalDiveCount_of_agree {m m' : Memory} (h : AgreeOnReads m m') : totalDiveCount m = totalDiveCount m' := by
  rw [totalDiveCount_eq, totalDiveCount_eq, h 0x7F2 (by omega), h 0x7F3 (by omega)]

theorem storedDives_of_agree {m m' : Memory} (h : AgreeOnReads m m') : storedDives m = storedDives m' := by
  rw [storedDives, storedDives, h 0x7F5 (by omega)]

theorem storedDiveCount_of_agree {m m' : Memory} (h : AgreeOnReads m m') : storedDiveCount m = storedDiveCount m' := by
  rw [storedDiveCount_eq, storedDiveCount_eq, storedDives_of_agree h]

theorem endCursor_of_agree {m m' : Memory} (h : AgreeOnReads m m') : endCursor m = endCursor m' := by
  rw [endCursor, endCursor, h 0x7F6 (by omega), h 0x7F7 (by omega)]

theorem depthProfileEndIndex_of_agree {m m' : Memory} (h : AgreeOnReads m m') :
    depthProfileEndIndex m = depthProfileEndIndex m' := by
  rw [depthProfileEndIndex_eq, depthProfileEndIndex_eq, endCursor_of_agree h]

theorem logbookSlot_of_agree {m m' : Memory} (h : AgreeOnReads m m') (n : Nat) :
    logbookSlot m n = logbookSlot m' n := by
  rw [logbookSlot, logbookSlot, h 0x7F4 (by omega)]

theorem logbookStartIndex_of_agree {m m' : Memory} (h : AgreeOnReads m m') (n : Nat) :
    logbookStartIndex m n = logbookStartIndex m' n := by
  rw [logbookStartIndex_eq, logbookStartIndex_eq, logbookSlot_of_agree h]

theorem profileSegment_of_agree {m m' : Memory} (h : AgreeOnReads m m') (n : Nat) :
    profileSegment m n = profileSegment m' n := by
  have hend := endCursor_of_agree h
  have hdist := sentinelDistances_congr hend fun a ha => h a (by omega)
  unfold profileSegment segmentEnd behind
  rw [hdist, hend]

theorem findDepthProfileStart_of_agree {m m' : Memory} (h : AgreeOnReads m m') (n : Nat) :
    findDepthProfileStart m n = findDepthProfileStart m' n := by
  rw [findDepthProfileStart_eq, findDepthProfileStart_eq, profileSegment_of_agree h]

theorem identityBytes_of_agree {m m' : Memory} (h : AgreeOnReads m m') : identityBytes m = identityBytes m' := by
  rw [identityBytes, identityBytes, h 0x7ED (by omega), h 0x7EE (by omega), h 0x7EF (by omega), h 0x7BC (by omega)]

theorem deviceIdentity_of_agree {m m' : Memory} (h : AgreeOnReads m m') : deviceIdentity m = deviceIdentity m' := by
  rw [deviceIdentity_eq, deviceIdentity_eq, identityBytes_of_agree h]

/-- A logbook address stays below the model code, whatever the index. -/
theorem get_reduced_of_agree {m m' : Memory} (h : AgreeOnReads m m') (a : Nat) :
    m.get (reduced a) = m'.get (reduced a) := by
  rw [← logaddr_eq]
  exact h _ (.inl ((logaddr_lt a).trans (by decide)))

theorem entryBytes_of_agree {m m' : Memory} (h : AgreeOnReads m m') (i : Nat) : entryBytes m i = entryBytes m' i := by
  simp only [entryBytes, get_reduced_of_agree h]

theorem logbookEntry_of_agree {m m' : Memory} (h : AgreeOnReads m m') (i : Nat) :
    logbookEntry m i = logbookEntry m' i := by
  rw [logbookEntry_eq, logbookEntry_eq, entryBytes_of_agree h]

theorem sampleBytes_of_agree {m m' : Memory} (h : AgreeOnReads m m') (i count : Nat) :
    sampleBytes m i count = sampleBytes m' i count :=
  List.map_congr_left fun k _ => h _ (.inl ((Nat.mod_lt (i + 1 + k) (by decide)).trans (by decide)))

theorem profileSamples_of_agree {m m' : Memory} (h : AgreeOnReads m m') {start : Nat} (count : Nat)
    (hstart : start < 0x600) : profileSamples m start count = profileSamples m' start count := by
  rw [profileSamples_eq _ _ hstart, profileSamples_eq _ _ hstart, sampleBytes_of_agree h]

theorem openHeader_of_agree {m m' : Memory} (h : AgreeOnReads m m') : openHeader m = openHeader m' := by
  rw [openHeader, openHeader, h 0x7FB (by omega), h 0x7FA (by omega), h 0x7F9 (by omega), h 0x7F8 (by omega)]

theorem headerBytes_of_agree {m m' : Memory} (h : AgreeOnReads m m') : headerBytes m = headerBytes m' := by
  rw [headerBytes_eq, headerBytes_eq, openHeader_of_agree h]

theorem recordHead_of_agree {m m' : Memory} (h : AgreeOnReads m m') (n : Nat) : recordHead m n = recordHead m' n := by
  rw [recordHead, recordHead, identityBytes_of_agree h, logbookSlot_of_agree h, entryBytes_of_agree h]

theorem diveRecord_of_agree {m m' : Memory} (h : AgreeOnReads m m') (n : Nat) : diveRecord m n = diveRecord m' n := by
  unfold diveRecord
  rw [profileSegment_of_agree h, recordHead_of_agree h]
  split
  · rw [sampleBytes_of_agree h]
  · rfl

/-! ## The same next state but for the image -/

/-- The state with another image. -/
def replaceImage (m : Memory) (s : State) : State := { s with img := m }

/-- Both results are next states, and they differ at most in the image, which is `m` in the second. -/
def SameNext (m : Memory) (r r' : Result) : Prop := ∃ t : State, r = .next t ∧ r' = .next (replaceImage m t)

theorem sameNext_next {m : Memory} {t t' : State} (h : t' = replaceImage m t) : SameNext m (.next t) (.next t') :=
  ⟨t, rfl, by rw [h]⟩

theorem sameNext_ite {m : Memory} {c : Prop} [Decidable c] {r₁ r₂ r₁' r₂' : Result} (h₁ : c → SameNext m r₁ r₁')
    (h₂ : ¬ c → SameNext m r₂ r₂') : SameNext m (if c then r₁ else r₂) (if c then r₁' else r₂') := by
  split
  · next hc => exact h₁ hc
  · next hc => exact h₂ hc

/-- A read that returns the same value on both images, and what is done with the value. -/
theorem sameNext_read {m : Memory} {α : Type} {r r' : Except Fault α} {v : α} {k k' : α → Result} (hr : r = .ok v)
    (hr' : r' = r) (h : SameNext m (k v) (k' v)) : SameNext m (orFault r k) (orFault r' k') := by
  rw [hr', hr, orFault_ok, orFault_ok]
  exact h

theorem replaceImage_ite (m : Memory) (c : Prop) [Decidable c] (t u : State) :
    replaceImage m (if c then t else u) = if c then replaceImage m t else replaceImage m u :=
  apply_ite (replaceImage m) c t u

/-! ## The transfer reads no image byte -/

theorem nextChunk_replaceImage (m : Memory) (s : State) :
    (replaceImage m s).nextChunk = replaceImage m s.nextChunk := by
  rw [State.nextChunk, State.nextChunk, replaceImage_ite]
  rfl

theorem beginBulk_replaceImage (m : Memory) (s : State) :
    (replaceImage m s).beginBulk = replaceImage m s.beginBulk :=
  nextChunk_replaceImage m { s with retry := 0, choff := 0, chcnt := 0 }

theorem emitStep_replaceImage (m : Memory) (s : State) : (replaceImage m s).emitStep = replaceImage m s.emitStep := by
  have hbyte : (replaceImage m s).fb[(replaceImage m s).txpos]? = s.fb[s.txpos]? := rfl
  unfold State.emitStep
  rw [hbyte]
  split
  · rfl
  · rw [replaceImage_ite]
    rfl

theorem onAck_replaceImage (m : Memory) (s : State) : (replaceImage m s).onAck = replaceImage m s.onAck := by
  rw [State.onAck, State.onAck, replaceImage_ite, ← nextChunk_replaceImage]
  rfl

theorem failTransfer_replaceImage (m : Memory) (s : State) (sub : BitVec 4) :
    (replaceImage m s).failTransfer sub = replaceImage m (s.failTransfer sub) := by
  have hop : (replaceImage m s).sendsOnePacket = s.sendsOnePacket := rfl
  unfold State.failTransfer
  rw [hop]
  split <;> rfl

theorem onNak_replaceImage (m : Memory) (s : State) : (replaceImage m s).onNak = replaceImage m s.onNak := by
  by_cases hlast : (s.retry + 1).toNat = 10
  · rw [onNak_last hlast, ← failTransfer_replaceImage]
    exact onNak_last hlast
  · rw [onNak_again hlast]
    exact onNak_again hlast

theorem timeoutOrSleep_replaceImage (m : Memory) (s : State) :
    (replaceImage m s).timeoutOrSleep = replaceImage m s.timeoutOrSleep := by
  rw [State.timeoutOrSleep, State.timeoutOrSleep, replaceImage_ite, ← failTransfer_replaceImage]
  rfl

theorem pollStep_replaceImage (m : Memory) (s : State) : (replaceImage m s).pollStep = replaceImage m s.pollStep := by
  have hrx : (replaceImage m s).rx = s.rx := rfl
  unfold State.pollStep
  rw [hrx]
  split
  · exact timeoutOrSleep_replaceImage m s
  · next b rest _ =>
    cases classify b with
    | ack => exact onAck_replaceImage m { s with rx := rest }
    | noise => exact timeoutOrSleep_replaceImage m { s with rx := rest }
    | nak => exact onNak_replaceImage m { s with rx := rest }

theorem waitStep_replaceImage (m : Memory) (s : State) : (replaceImage m s).waitStep = replaceImage m s.waitStep := by
  cases hs : s.sleeping with
  | none =>
    rw [waitStep_poll hs, ← pollStep_replaceImage]
    exact waitStep_poll hs
  | some start =>
    rw [waitStep_sleeping hs, replaceImage_ite]
    exact waitStep_sleeping hs

/-! ## The commands -/

theorem sameNext_totcnt {m : Memory} {s : State} (h : AgreeOnReads m s.img) :
    SameNext m (execTotcnt s) (execTotcnt (replaceImage m s)) :=
  sameNext_read (totalDiveCount_eq _) (totalDiveCount_of_agree h) (sameNext_next rfl)

theorem sameNext_stocnt {m : Memory} {s : State} (h : AgreeOnReads m s.img) :
    SameNext m (execStocnt s) (execStocnt (replaceImage m s)) :=
  sameNext_read (storedDiveCount_eq _) (storedDiveCount_of_agree h) (sameNext_next rfl)

theorem sameNext_logidx {m : Memory} {s : State} (h : AgreeOnReads m s.img) :
    SameNext m (execLogidx s) (execLogidx (replaceImage m s)) := by
  have hop : (replaceImage m s).diveIndex = s.diveIndex := rfl
  unfold execLogidx
  rw [hop]
  split
  · exact sameNext_next rfl
  · exact sameNext_read (logbookStartIndex_eq _ _) (logbookStartIndex_of_agree h _) (sameNext_next rfl)

theorem sameNext_profend {m : Memory} {s : State} (h : AgreeOnReads m s.img) :
    SameNext m (execProfend s) (execProfend (replaceImage m s)) :=
  sameNext_read (depthProfileEndIndex_eq _) (depthProfileEndIndex_of_agree h) (sameNext_next rfl)

theorem sameNext_proffind {m : Memory} {s : State} (h : AgreeOnReads m s.img) :
    SameNext m (execProffind s) (execProffind (replaceImage m s)) := by
  have hop : (replaceImage m s).diveIndex = s.diveIndex := rfl
  unfold execProffind
  rw [hop]
  split
  · exact sameNext_next rfl
  · next n _ =>
    refine sameNext_read (findDepthProfileStart_eq _ _) (findDepthProfileStart_of_agree h _) ?_
    cases profileSegment s.img n with
    | none => exact sameNext_next rfl
    | some p => exact sameNext_next rfl

theorem sameNext_wrlog {m : Memory} {s : State} (h : AgreeOnReads m s.img) :
    SameNext m (execWrlog s) (execWrlog (replaceImage m s)) :=
  sameNext_ite (fun _ => sameNext_read (logbookEntry_eq _ _) (logbookEntry_of_agree h _) (sameNext_next rfl))
    fun _ => sameNext_next rfl

theorem sameNext_wrprof {m : Memory} {s : State} (h : AgreeOnReads m s.img) :
    SameNext m (execWrprof s) (execWrprof (replaceImage m s)) := by
  refine sameNext_ite (fun _ => sameNext_next rfl) fun hring => ?_
  have hstart : s.indexOperand < 0x600 := Nat.not_le.1 hring
  refine sameNext_ite (fun _ => ?_) fun _ => sameNext_next rfl
  exact sameNext_read (profileSamples_eq _ _ hstart) (profileSamples_of_agree h _ hstart) (sameNext_next rfl)

theorem sameNext_wrident {m : Memory} {s : State} (h : AgreeOnReads m s.img) :
    SameNext m (execWrident s) (execWrident (replaceImage m s)) :=
  sameNext_ite (fun _ => sameNext_read (deviceIdentity_eq _) (deviceIdentity_of_agree h) (sameNext_next rfl))
    fun _ => sameNext_next rfl

theorem sameNext_msgenc (m : Memory) (s : State) : SameNext m (execMsgenc s) (execMsgenc (replaceImage m s)) :=
  sameNext_ite (fun _ => sameNext_next rfl) fun _ =>
    sameNext_ite (fun _ => sameNext_next rfl) fun _ =>
      sameNext_ite (fun _ => sameNext_next rfl) fun _ => sameNext_next rfl

theorem sameNext_pktsend (m : Memory) (s : State) : SameNext m (execPktsend s) (execPktsend (replaceImage m s)) :=
  sameNext_ite (fun _ => sameNext_next rfl) fun _ => sameNext_next rfl

theorem sameNext_envopen {m : Memory} {s : State} (h : AgreeOnReads m s.img) :
    SameNext m (execEnvopen s) (execEnvopen (replaceImage m s)) :=
  sameNext_read (headerBytes_eq _) (headerBytes_of_agree h) (sameNext_next rfl)

theorem sameNext_envclose (m : Memory) (s : State) : SameNext m (execEnvclose s) (execEnvclose (replaceImage m s)) :=
  sameNext_ite (fun _ => sameNext_next rfl) fun _ =>
    sameNext_ite (fun _ => sameNext_next rfl) fun _ => sameNext_next rfl

theorem exportOpened_replaceImage {m : Memory} {s : State} (h : AgreeOnReads m s.img) :
    exportOpened (replaceImage m s) = replaceImage m (exportOpened s) := by
  rw [exportOpened, exportOpened, ← openHeader_of_agree h, ← storedDives_of_agree h]
  rfl

theorem sameNext_export {m : Memory} {s : State} (h : AgreeOnReads m s.img) :
    SameNext m (execExport s) (execExport (replaceImage m s)) := by
  have hcount : storedDives (replaceImage m s).img = storedDives s.img := storedDives_of_agree h
  rw [execExport_eq, execExport_eq, hcount, exportOpened_replaceImage h]
  exact sameNext_ite (fun _ => sameNext_next rfl) fun _ => sameNext_next rfl

theorem sameNext_exec {m : Memory} {s : State} (h : AgreeOnReads m s.img) (i : Instr) :
    SameNext m (exec i s) (exec i (replaceImage m s)) := by
  cases i with
  | sbclr => exact sameNext_next rfl
  | totcnt => exact sameNext_totcnt h
  | stocnt => exact sameNext_stocnt h
  | logidx => exact sameNext_logidx h
  | profend => exact sameNext_profend h
  | proffind => exact sameNext_proffind h
  | logvalid => exact sameNext_next rfl
  | profvalid => exact sameNext_next rfl
  | wrlog => exact sameNext_wrlog h
  | wrprof => exact sameNext_wrprof h
  | wrident => exact sameNext_wrident h
  | msgenc => exact sameNext_msgenc m s
  | pktsend => exact sameNext_pktsend m s
  | bulksend => exact sameNext_next (beginBulk_replaceImage m s)
  | envopen => exact sameNext_envopen h
  | envclose => exact sameNext_envclose m s
  | exportRun => exact sameNext_export h

/-! ## The sequencer -/

/-- The end of a dive's staging with another image. -/
def replaceImageStaged (m : Memory) : Staging → Staging
  | .staged t => .staged (replaceImage m t)
  | .stopped e info t => .stopped e info (replaceImage m t)

theorem stageUnstable_replaceImage (m : Memory) (s : State) :
    (replaceImage m s).stageUnstable = replaceImageStaged m s.stageUnstable := by
  simp only [State.stageUnstable, apply_ite (replaceImageStaged m)]
  rfl

theorem stageDive_replaceImage {m : Memory} {s : State} (h : AgreeOnReads m s.img) :
    ∃ x, s.stageDive = .ok x ∧ (replaceImage m s).stageDive = .ok (replaceImageStaged m x) := by
  refine ⟨_, stageDive_eq s, ?_⟩
  have himg : (replaceImage m s).img = m := rfl
  have hdive : (replaceImage m s).dive = s.dive := rfl
  rw [stageDive_eq, himg, hdive, profileSegment_of_agree h, recordHead_of_agree h, diveRecord_of_agree h]
  cases profileSegment s.img s.dive.toNat with
  | none => rfl
  | some p => rfl

/-- The loop body of EXPORT, whether the record comes from the image or, after a change of it, is free. -/
theorem staging_replaceImage {m : Memory} {s : State} (h : AgreeOnReads m s.img) :
    ∃ x, (if s.imageChanged then .ok s.stageUnstable else s.stageDive) = .ok x ∧
      (if (replaceImage m s).imageChanged then .ok (replaceImage m s).stageUnstable
        else (replaceImage m s).stageDive) = .ok (replaceImageStaged m x) := by
  have hchanged : (replaceImage m s).imageChanged = s.imageChanged := rfl
  rw [hchanged]
  split
  · exact ⟨_, rfl, congrArg Except.ok (stageUnstable_replaceImage m s)⟩
  · exact stageDive_replaceImage h

theorem sameNext_stageStep {m : Memory} {s : State} (h : AgreeOnReads m s.img) :
    SameNext m s.stageStep (replaceImage m s).stageStep := by
  obtain ⟨x, hx, hx'⟩ := staging_replaceImage h
  rw [State.stageStep, State.stageStep, hx, hx', orFault_ok, orFault_ok]
  cases x with
  | stopped e info t => exact sameNext_next rfl
  | staged t =>
    exact sameNext_ite (fun _ => sameNext_next (beginBulk_replaceImage m t.closeEnvelope)) fun _ => sameNext_next rfl

theorem sameNext_sequencerStep {m : Memory} {s : State} (h : AgreeOnReads m s.img) :
    SameNext m s.sequencerStep (replaceImage m s).sequencerStep := by
  refine sameNext_ite (fun _ => ?_) fun _ => sameNext_next rfl
  rw [show (replaceImage m s).tstate = s.tstate from rfl]
  cases s.tstate with
  | idle => exact sameNext_stageStep h
  | sending => exact sameNext_next (emitStep_replaceImage m s)
  | awaitingAck => exact sameNext_next (waitStep_replaceImage m s)
  | done => exact sameNext_next rfl
  | failed => exact sameNext_next rfl

/-- Settles O58: by the command, and for the sequencer by the state of the transport. -/
theorem unreadImageBytesHaveNoEffect : Obligations.UnreadImageBytesHaveNoEffect := by
  intro s m hm
  have h : AgreeOnReads m s.img := hm
  refine ⟨sameNext_exec h, fun henv => ?_⟩
  have hstep : step { s with img := m } = (replaceImage m s).sequencerStep := step_nil (s := replaceImage m s) henv
  rw [step_nil henv, hstep]
  exact sameNext_sequencerStep h

end Sys2Proof.Proofs
end


section
/-! Command words: the opcode map and its inverse, and the two reasons for which a word is illegal. -/

namespace Sys2Proof.Proofs

open Sys2Proof Sys2Proof.Machine Sys2Proof.Safety

/-! ## The opcode map -/

@[simp] theorem decodeOpcode_opcode (i : Instr) : decodeOpcode (opcode i) = some i := by cases i <;> rfl

/-- The opcode map and the commands' opcodes are inverse to each other (30_encoding.md rule R65). -/
theorem decodeOpcode_eq_some_iff {b : Byte} {i : Instr} : decodeOpcode b = some i ↔ opcode i = b :=
  ⟨fun h => (opcode_of_decodeOpcode h).symm, fun h => h ▸ decodeOpcode_opcode i⟩

theorem decodeOpcode_eq_none_iff {b : Byte} : decodeOpcode b = none ↔ ∀ i : Instr, opcode i ≠ b := by
  simp only [Option.eq_none_iff_forall_ne_some, ne_eq, decodeOpcode_eq_some_iff]

/-! ## The decoder's three answers

By the two fields of the word, the upper byte tested first (60_exceptions.md rule R142). -/

theorem decode_of_zeroField_ne {v : Half} (h : zeroField v ≠ 0) : decode v = .error .upperByte := if_neg h

theorem decode_of_decodeOpcode_some {v : Half} {i : Instr} (hz : zeroField v = 0)
    (hop : decodeOpcode (opcodeField v) = some i) : decode v = .ok i := by
  simp [decode, hz, hop]

theorem decode_of_decodeOpcode_none {v : Half} (hz : zeroField v = 0)
    (hop : decodeOpcode (opcodeField v) = none) : decode v = .error .undefinedOpcode := by
  simp [decode, hz, hop]

theorem decode_eq_upperByte_iff {v : Half} : decode v = .error .upperByte ↔ zeroField v ≠ 0 := by
  refine ⟨fun h hz => ?_, decode_of_zeroField_ne⟩
  cases hop : decodeOpcode (opcodeField v) with
  | some i => exact nomatch h.symm.trans (decode_of_decodeOpcode_some hz hop)
  | none => exact nomatch h.symm.trans (decode_of_decodeOpcode_none hz hop)

theorem decode_eq_undefinedOpcode_iff {v : Half} :
    decode v = .error .undefinedOpcode ↔ zeroField v = 0 ∧ ∀ i : Instr, opcode i ≠ opcodeField v := by
  rw [← decodeOpcode_eq_none_iff]
  refine ⟨fun h => ?_, fun ⟨hz, hop⟩ => decode_of_decodeOpcode_none hz hop⟩
  by_cases hz : zeroField v = 0
  · refine ⟨hz, ?_⟩
    cases hop : decodeOpcode (opcodeField v) with
    | some i => exact nomatch h.symm.trans (decode_of_decodeOpcode_some hz hop)
    | none => rfl
  · exact nomatch h.symm.trans (decode_of_zeroField_ne hz)

/-! ## The commands' own words -/

theorem formatC_statement : (i : Instr) → Laws.FormatC.Statement i
  | .sbclr => Laws.FormatC.sbclr
  | .totcnt => Laws.FormatC.totcnt
  | .stocnt => Laws.FormatC.stocnt
  | .logidx => Laws.FormatC.logidx
  | .profend => Laws.FormatC.profend
  | .proffind => Laws.FormatC.proffind
  | .logvalid => Laws.FormatC.logvalid
  | .profvalid => Laws.FormatC.profvalid
  | .wrlog => Laws.FormatC.wrlog
  | .wrprof => Laws.FormatC.wrprof
  | .wrident => Laws.FormatC.wrident
  | .msgenc => Laws.FormatC.msgenc
  | .pktsend => Laws.FormatC.pktsend
  | .bulksend => Laws.FormatC.bulksend
  | .envopen => Laws.FormatC.envopen
  | .envclose => Laws.FormatC.envclose
  | .exportRun => Laws.FormatC.exportRun

theorem wordWf_encode (i : Instr) : wordWf (encode i) = true := by
  obtain ⟨-, hword, -⟩ := formatC_statement i
  exact hword

@[simp] theorem opcodeField_encode (i : Instr) : opcodeField (encode i) = opcode i := by
  obtain ⟨-, -, hop⟩ := formatC_statement i
  exact hop

theorem zeroField_of_wordWf {v : Half} (h : wordWf v = true) : zeroField v = 0 := by
  obtain ⟨hz, -⟩ := Bool.and_eq_true_iff.1 h
  exact eq_of_beq hz

@[simp] theorem decode_encode (i : Instr) : decode (encode i) = .ok i :=
  decode_of_decodeOpcode_some (zeroField_of_wordWf (wordWf_encode i)) (by simp)

/-- An illegal word ends with IllegalCommand in its one step, `CMD` and `OP` latched. -/
theorem step_illegal_finished {s : State} {v : Half} {rest : List Event} {w : IllegalWord} (hb : s.busy = false)
    (he : s.env = .hostWrite .cmd v :: rest) (h : decode v = .error w) :
    step s = .next (finished { s with env := rest, cmd := v, op := opcodeField v } .illegalCommand
      (illegalInfo w) 0 0 false) := by
  rw [step_illegal hb he h, State.rejectWord, State.reject_eq]
  rfl

/-! ## The statements -/

/-- Settles O2: each command decodes from its own word, and no other word decodes to it. -/
theorem decodeAndEncodeAgree : Obligations.DecodeAndEncodeAgree := by
  refine ⟨fun i _ => decode_encode i, fun v i h => ?_⟩
  obtain rfl := eq_encode_of_decode h
  exact ⟨rfl, wordWf_encode i⟩

/-- Settles O3: each refusal by the fields of the word. -/
theorem illegalWordsAreClassified : Obligations.IllegalWordsAreClassified := fun _ =>
  ⟨decode_eq_upperByte_iff, decode_eq_undefinedOpcode_iff⟩

/-- Settles O1: the table gives each command's own word, which decodes to the command. -/
theorem opcodeMapIsTheTable : Obligations.OpcodeMapIsTheTable := by
  refine ⟨fun p hp => ?_, by decide, by decide, decode_of_zeroField_ne (by decide)⟩
  have hword : encode p.2 = p.1 := by
    revert p
    decide
  exact ⟨hword ▸ decode_encode p.2, hword⟩

/-- Settles O4: the decoder's refusal decides the sub-cause, and the step completes with it. -/
theorem illegalCommandCompletesAtOnce : Obligations.IllegalCommandCompletesAtOnce := fun _ _ _ hb he =>
  ⟨fun hz hop => step_illegal_finished hb he (decode_eq_undefinedOpcode_iff.2 ⟨hz, hop⟩),
    fun hz => step_illegal_finished hb he (decode_eq_upperByte_iff.2 hz)⟩

end Sys2Proof.Proofs
end


section
/-! The ring decoder: each command's whole next state in closed form, and what delimits a depth-profile segment. -/

namespace Sys2Proof.Proofs

open Sys2Proof Sys2Proof.Machine Sys2Proof.Safety

/-! ## The dive index operand (30_encoding.md rule R66) -/

theorem diveIndex_of_upper_ne {s : State} (h : s.arg0.extractLsb' 8 8 ≠ 0) : s.diveIndex = none := if_neg h

theorem diveIndex_of_upper_eq {s : State} (h : s.arg0.extractLsb' 8 8 = 0) :
    s.diveIndex = some (s.arg0.extractLsb' 0 8).toNat := if_pos h

theorem upper_ne_of_diveIndex {s : State} (h : s.diveIndex = none) : s.arg0.extractLsb' 8 8 ≠ 0 :=
  fun h0 => nomatch h.symm.trans (diveIndex_of_upper_eq h0)

theorem diveIndex_congr {s s' : State} (h : s'.arg0 = s.arg0) : s'.diveIndex = s.diveIndex := by
  rw [State.diveIndex, State.diveIndex, h]

theorem diveIndex_ofNat (s : State) {n : Nat} (h : n ≤ 255) :
    ({ s with arg0 := BitVec.ofNat 16 n } : State).diveIndex = some n := by
  have hupper : (BitVec.ofNat 16 n).extractLsb' 8 8 = 0 := by
    apply BitVec.eq_of_toNat_eq
    simp [Nat.shiftRight_eq_div_pow]
    omega
  have hlower : ((BitVec.ofNat 16 n).extractLsb' 0 8).toNat = n := by
    simp
    omega
  rw [diveIndex_of_upper_eq (s := { s with arg0 := BitVec.ofNat 16 n }) hupper, hlower]

/-! ## The commands -/

theorem toNat_ofNat_half {n : Nat} (h : n < 0x600) : (BitVec.ofNat 16 n).toNat = n :=
  Nat.mod_eq_of_lt (by omega)

theorem zero_append_byte (b : Byte) : (0 : Byte) ++ b = BitVec.ofNat 16 b.toNat := by
  rw [concat_bytes]
  simp

theorem exec_totcnt (s : State) :
    exec .totcnt s = .next (finished s .noError 0 (s.img.get 0x7F2 ++ s.img.get 0x7F3) 0 false) := by
  rw [concat_bytes, exec, execTotcnt, totalDiveCount_eq, orFault_ok]
  rfl

theorem exec_stocnt (s : State) :
    exec .stocnt s = .next (finished s .noError 0 ((0 : Byte) ++ s.img.get 0x7F5) 0 false) := by
  rw [zero_append_byte, exec, execStocnt, storedDiveCount_eq, orFault_ok]
  rfl

theorem exec_profend (s : State) :
    exec .profend s = .next (finished s .noError 0 (BitVec.ofNat 16 (endCursor s.img)) 0 false) := by
  rw [exec, execProfend, depthProfileEndIndex_eq, orFault_ok]
  rfl

theorem exec_logvalid (s : State) :
    exec .logvalid s = .next (finished s .noError 0 0 0 (isLogbookIndexValid s.arg0.toNat)) := by
  rw [← indexOperand_eq]
  rfl

theorem exec_profvalid (s : State) :
    exec .profvalid s = .next (finished s .noError 0 0 0 (isDepthProfileIndexValid s.arg0.toNat)) := by
  rw [← indexOperand_eq]
  rfl

theorem exec_logidx_malformed {s : State} (h : s.diveIndex = none) :
    exec .logidx s = .next (finished s .operandError 1 0 0 false) := by
  rw [exec, execLogidx, h]
  rfl

theorem exec_logidx_dive {s : State} {n : Nat} (h : s.diveIndex = some n) :
    exec .logidx s =
      .next (finished s .noError 0 (BitVec.ofNat 16 (0x600 + 12 * logbookSlot s.img n)) 0 false) := by
  rw [exec, execLogidx]
  simp only [h, logbookStartIndex_eq, orFault_ok, zext16_index]
  rfl

theorem exec_proffind_malformed {s : State} (h : s.diveIndex = none) :
    exec .proffind s = .next (finished s .operandError 1 0 0 false) := by
  rw [exec, execProffind, h]
  rfl

theorem exec_proffind_found {s : State} {n start len : Nat} (h : s.diveIndex = some n)
    (hp : profileSegment s.img n = some (start, len)) :
    exec .proffind s = .next (finished s .noError 0 (BitVec.ofNat 16 start) (BitVec.ofNat 16 len) true) := by
  rw [exec, execProffind]
  simp only [h, findDepthProfileStart_eq, hp, orFault_ok, zext16_index]
  rfl

theorem exec_proffind_notFound {s : State} {n : Nat} (h : s.diveIndex = some n)
    (hp : profileSegment s.img n = none) : exec .proffind s = .next (finished s .noError 0 0 0 false) := by
  rw [exec, execProffind]
  simp only [h, findDepthProfileStart_eq, hp, orFault_ok]
  rfl

/-- A PROFFIND that sets `FLAG` returns the segment of the dive. -/
theorem profileSegment_of_flag {s t : State} {n : Nat} (hn : s.diveIndex = some n) (h : exec .proffind s = .next t)
    (hflag : t.flag = true) : profileSegment s.img n = some (t.res0.toNat, t.res1.toNat) := by
  cases hp : profileSegment s.img n with
  | none =>
    rw [exec_proffind_notFound hn hp] at h
    cases h
    cases hflag
  | some p =>
    obtain ⟨start, len⟩ := p
    obtain ⟨hstart, -, hlen, -⟩ := segment_bounds hp
    rw [exec_proffind_found hn hp] at h
    cases h
    simp only [finished, toNat_ofNat_half hstart, toNat_ofNat_half (Nat.lt_succ_of_le hlen)]

/-- Of the high byte, the cursor has bits 3 to 1 only (20_memory.md rule R41). -/
theorem endCursor_slice (lo hi : Byte) :
    BitVec.ofNat 16 (hi.toNat / 2 % 8 * 256 + lo.toNat) = (0 : BitVec 5) ++ hi.extractLsb' 1 3 ++ lo := by
  have hcat : (0 : BitVec 5) ++ hi.extractLsb' 1 3 = BitVec.ofNat 8 (hi.toNat / 2 % 8) := by
    apply BitVec.eq_of_toNat_eq
    rw [BitVec.toNat_append]
    simp [Nat.shiftRight_eq_div_pow]
    omega
  rw [hcat, concat_bytes, BitVec.toNat_ofNat, Nat.mod_eq_of_lt (by omega : hi.toNat / 2 % 8 < 2 ^ 8)]

/-! ## The logbook slots (40_decoder.md rule R93 items 1 to 3) -/

theorem logbookSlot_add_period (m : Memory) (n : Nat) : logbookSlot m (n + 37) = logbookSlot m n := by
  unfold logbookSlot
  omega

theorem logbookSlot_eq_succ (m : Memory) (n : Nat) : logbookSlot m n = (logbookSlot m (n + 1) + 1) % 37 := by
  unfold logbookSlot
  omega

/-- The byte distance of rule R88, reduced modulo the ring's 444 bytes, is the slot times the entry's 12 bytes. -/
theorem startIndex_eq_slot (m : Memory) (n : Nat) :
    (((((m.get 0x7F4).toNat + 36) % 37 * 12 : Nat) : Int) - 12 * n) % 444 + 0x600 =
      ((0x600 + 12 * logbookSlot m n : Nat) : Int) := by
  unfold logbookSlot
  omega

/-! ## The ends of a segment (40_decoder.md rule R93 items 5 to 7) -/

theorem endCursor_lt_of_distance {m : Memory} {n d : Nat} (h : (sentinelDistances m)[n]? = some d) :
    endCursor m < 0x600 := by
  obtain ⟨-, -, -, he⟩ := sentinelDistances_mem (List.mem_of_getElem? h)
  exact he

theorem mem_sentinelDistances {m : Memory} {d : Nat} (he : endCursor m < 0x600) (h1 : 1 ≤ d) (h2 : d ≤ 0x5FF)
    (hb : m.get (behind m d) = 0xFF) : d ∈ sentinelDistances m := by
  rw [sentinelDistances, if_pos he, List.mem_filter, List.mem_range'_1]
  exact ⟨⟨h1, by omega⟩, beq_iff_eq.2 hb⟩

/-- Going forward in the ring comes nearer to the end cursor. -/
theorem behind_add (m : Memory) {d k : Nat} (hk : k ≤ d) (hd : d ≤ 0x5FF) :
    (behind m d + k) % 0x600 = behind m (d - k) := by
  unfold behind
  omega

theorem profileSegment_of_distance {m : Memory} {n d : Nat} (h : (sentinelDistances m)[n]? = some d) :
    profileSegment m n = some (behind m d, d - segmentEnd m n) := by
  rw [profileSegment, h]
  rfl

/-- A found segment begins at the sentinel number `n` and reaches to the segment's end. -/
theorem distance_of_segment {m : Memory} {n start len : Nat} (h : profileSegment m n = some (start, len)) :
    ∃ d, (sentinelDistances m)[n]? = some d ∧ d ≤ 0x5FF ∧ segmentEnd m n < d ∧ start = behind m d ∧
      len = d - segmentEnd m n := by
  obtain ⟨d, hd⟩ := exists_distance h
  obtain ⟨-, hle, -, -⟩ := sentinelDistances_mem (List.mem_of_getElem? hd)
  rw [profileSegment_of_distance hd] at h
  cases h
  exact ⟨d, hd, hle, segmentEnd_lt hd, rfl, rfl⟩

/-- No sentinel lies between the segment's own and the next newer one. -/
theorem not_mem_between {m : Memory} {n d d' : Nat} (h : (sentinelDistances m)[n]? = some d)
    (hlo : segmentEnd m n < d') (hhi : d' < d) : d' ∉ sentinelDistances m := by
  intro hmem
  have hsorted := List.pairwise_iff_getElem.1 (sentinelDistances_sorted m)
  obtain ⟨hn, rfl⟩ := List.getElem?_eq_some_iff.1 h
  obtain ⟨i, hi, rfl⟩ := List.mem_iff_getElem.1 hmem
  have hin : i < n := by
    by_contra hge
    rcases Nat.eq_or_lt_of_le (Nat.not_lt.1 hge) with rfl | hlt
    · exact absurd hhi (Nat.lt_irrefl _)
    · exact absurd hhi (Nat.lt_asymm (hsorted n i hn hi hlt))
  obtain ⟨k, rfl⟩ : ∃ k, n = k + 1 := ⟨n - 1, by omega⟩
  rw [segmentEnd_succ (List.getElem?_eq_getElem (by omega))] at hlo
  rcases Nat.eq_or_lt_of_le (Nat.le_of_lt_succ hin) with rfl | hlt
  · exact absurd hlo (Nat.lt_irrefl _)
  · exact absurd hlo (Nat.lt_asymm (hsorted i k hi (by omega) hlt))

theorem segment_interior {m : Memory} {n start len k : Nat} (h : profileSegment m n = some (start, len))
    (hk : k + 1 < len) : m.get ((start + 1 + k) % 0x600) ≠ 0xFF := by
  obtain ⟨d, hd, hle, -, rfl, rfl⟩ := distance_of_segment h
  rw [Nat.add_assoc, behind_add m (by omega) hle]
  intro hb
  exact not_mem_between hd (by omega) (by omega)
    (mem_sentinelDistances (endCursor_lt_of_distance hd) (by omega) (by omega) hb)

theorem segment_reaches_end {m : Memory} {n start len : Nat} (h : profileSegment m n = some (start, len)) :
    (start + len) % 0x600 = behind m (segmentEnd m n) := by
  obtain ⟨d, -, hle, hlt, rfl, rfl⟩ := distance_of_segment h
  rw [behind_add m (by omega) hle, Nat.sub_sub_self hlt.le]

theorem segment_zero_ends_at_cursor {m : Memory} {start len : Nat} (h : profileSegment m 0 = some (start, len)) :
    (start + len) % 0x600 = endCursor m := by
  obtain ⟨d, hd, -⟩ := distance_of_segment h
  rw [segment_reaches_end h, ← behind_zero m (endCursor_lt_of_distance hd)]
  rfl

theorem segment_succ_ends_at_newer {m : Memory} {n start len : Nat}
    (h : profileSegment m (n + 1) = some (start, len)) :
    ∃ start' len', profileSegment m n = some (start', len') ∧ (start + len) % 0x600 = start' := by
  obtain ⟨d, hd, -⟩ := distance_of_segment h
  obtain ⟨hn, -⟩ := List.getElem?_eq_some_iff.1 hd
  have hd' := List.getElem?_eq_getElem (l := sentinelDistances m) (i := n) (by omega)
  refine ⟨_, _, profileSegment_of_distance hd', ?_⟩
  rw [segment_reaches_end h, segmentEnd_succ hd']

/-! ## Purity (40_decoder.md rule R85) -/

/-- The command's completion depends on the image and ARG0 only, and is refused only for its dive index operand. -/
def CompletesByImageAndArg0 (i : Instr) (s : State) : Prop :=
  ∃ (e : ErrCode) (info : BitVec 4) (r0 r1 : Half) (f : Bool), (e = .noError ∨ e = .operandError) ∧
    (e = .operandError → s.arg0.extractLsb' 8 8 ≠ 0 ∧ (i = .logidx ∨ i = .proffind)) ∧
    ∀ s' : State, s'.img = s.img → s'.arg0 = s.arg0 → exec i s' = .next (finished s' e info r0 r1 f)

theorem completes_noError {i : Instr} {s : State} (r0 r1 : Half) (f : Bool)
    (h : ∀ s' : State, s'.img = s.img → s'.arg0 = s.arg0 → exec i s' = .next (finished s' .noError 0 r0 r1 f)) :
    CompletesByImageAndArg0 i s :=
  ⟨.noError, 0, r0, r1, f, .inl rfl, nofun, h⟩

/-- A command with a dive index operand: refused where it is malformed, else by the dive. -/
theorem completes_by_diveIndex {i : Instr} {s : State} (hi : i = .logidx ∨ i = .proffind)
    (hbad : ∀ s' : State, s'.diveIndex = none → exec i s' = .next (finished s' .operandError 1 0 0 false))
    (hdive : ∀ n, s.diveIndex = some n → CompletesByImageAndArg0 i s) : CompletesByImageAndArg0 i s := by
  cases hn : s.diveIndex with
  | none =>
    exact ⟨.operandError, 1, 0, 0, false, .inr rfl, fun _ => ⟨upper_ne_of_diveIndex hn, hi⟩,
      fun s' _ harg => hbad s' ((diveIndex_congr harg).trans hn)⟩
  | some n => exact hdive n hn

theorem completes_logidx (s : State) : CompletesByImageAndArg0 .logidx s := by
  refine completes_by_diveIndex (.inl rfl) (fun _ => exec_logidx_malformed) fun n hn => ?_
  refine completes_noError (BitVec.ofNat 16 (0x600 + 12 * logbookSlot s.img n)) 0 false fun s' himg harg => ?_
  rw [exec_logidx_dive ((diveIndex_congr harg).trans hn), himg]

theorem completes_proffind (s : State) : CompletesByImageAndArg0 .proffind s := by
  refine completes_by_diveIndex (.inr rfl) (fun _ => exec_proffind_malformed) fun n hn => ?_
  cases hp : profileSegment s.img n with
  | none =>
    exact completes_noError 0 0 false fun s' himg harg =>
      exec_proffind_notFound ((diveIndex_congr harg).trans hn) (himg ▸ hp)
  | some p =>
    exact completes_noError _ _ true fun s' himg harg =>
      exec_proffind_found ((diveIndex_congr harg).trans hn) (himg ▸ hp)

/-! ## The statements -/

/-- Settles O9: LOGIDX gives the slot of the dive, and the slots go round backwards. -/
theorem logidxWalksTheSlots : Obligations.LogidxWalksTheSlots := fun s _ hn =>
  ⟨exec_logidx_dive (diveIndex_ofNat s hn), logbookSlot_le _ _, logbookSlot_add_period _ _, logbookSlot_eq_succ _ _⟩

/-- Settles O11: by the operand, then by whether the backward scan finds the segment. -/
theorem proffindFindsTheSentinelOfTheDive : Obligations.ProffindFindsTheSentinelOfTheDive := by
  refine fun s => ⟨fun h => exec_proffind_malformed (diveIndex_of_upper_ne h), fun h => ?_⟩
  have hn := diveIndex_of_upper_eq h
  cases hp : profileSegment s.img (s.arg0.extractLsb' 0 8).toNat with
  | none => exact exec_proffind_notFound hn hp
  | some p => exact exec_proffind_found hn hp

/-- Settles O12: PROFFIND's results are the segment, whose end is the cursor or the segment of the dive before. -/
theorem foundSegmentsAreDelimitedBySentinels : Obligations.FoundSegmentsAreDelimitedBySentinels := by
  intro s t n hn h hflag
  have hp : profileSegment s.img n = some (t.res0.toNat, t.res1.toNat) :=
    profileSegment_of_flag (s := { s with arg0 := BitVec.ofNat 16 n }) (diveIndex_ofNat s hn) h hflag
  obtain ⟨hstart, hpos, hlen, hsentinel⟩ := segment_bounds hp
  refine ⟨hstart, hpos, hlen, hsentinel, fun k => segment_interior hp, ?_, ?_⟩
  · rintro rfl
    exact segment_zero_ends_at_cursor hp
  · rintro n' rfl
    obtain ⟨start', len', hp', hend⟩ := segment_succ_ends_at_newer hp
    obtain ⟨hstart', -⟩ := segment_bounds hp'
    refine ⟨_, exec_proffind_found (diveIndex_ofNat s (by omega)) hp', rfl, ?_⟩
    exact hend.trans (toNat_ofNat_half hstart').symm

/-- Settles O14: each command by its closed form; the two with a dive index operand by the operand. -/
theorem decoderCommandsArePure : Obligations.DecoderCommandsArePure := by
  intro i hi s
  change CompletesByImageAndArg0 i s
  simp only [List.mem_cons, List.not_mem_nil, or_false] at hi
  rcases hi with rfl | rfl | rfl | rfl | rfl | rfl | rfl
  · exact completes_noError _ _ _ fun s' himg _ => himg ▸ exec_totcnt s'
  · exact completes_noError _ _ _ fun s' himg _ => himg ▸ exec_stocnt s'
  · exact completes_logidx s
  · exact completes_noError _ _ _ fun s' himg _ => himg ▸ exec_profend s'
  · exact completes_proffind s
  · exact completes_noError _ _ _ fun s' _ harg => harg ▸ exec_logvalid s'
  · exact completes_noError _ _ _ fun s' _ harg => harg ▸ exec_profvalid s'

/-- Settles O6: two bytes side by side are the big-endian number. -/
theorem totcntReadsTheTotalCount : Obligations.TotcntReadsTheTotalCount := ⟨decode_encode .totcnt, exec_totcnt⟩

/-- Settles O7: a zero byte before the count is its zero extension. -/
theorem stocntReadsTheStoredCount : Obligations.StocntReadsTheStoredCount := ⟨decode_encode .stocnt, exec_stocnt⟩

/-- Settles O8: the formula of rule R88 is the slot's index. -/
theorem logidxComputesTheStartIndex : Obligations.LogidxComputesTheStartIndex := by
  refine ⟨decode_encode .logidx, fun s => ⟨fun h => exec_logidx_malformed (diveIndex_of_upper_ne h), fun h => ?_⟩⟩
  rw [startIndex_eq_slot, BitVec.ofInt_natCast]
  exact exec_logidx_dive (diveIndex_of_upper_eq h)

/-- Settles O10: the formula of rule R89 is the cursor, and the cursor is the slice. -/
theorem profendReadsTheEndCursor : Obligations.ProfendReadsTheEndCursor := by
  refine ⟨decode_encode .profend, fun s => ?_⟩
  rw [end_formula]
  exact ⟨exec_profend s, endCursor_slice _ _⟩

/-- Settles O13: the ranges of 20_memory.md rule R49, on the full operand. -/
theorem validityCommandsCheckTheRanges : Obligations.ValidityCommandsCheckTheRanges := by
  refine ⟨decode_encode .logvalid, decode_encode .profvalid, fun s => ⟨?_, exec_profvalid s⟩⟩
  rw [Bool.decide_and]
  exact exec_logvalid s

end Sys2Proof.Proofs
end


section
/-! The serializer: each command's whole next state in closed form, and the append discipline they share. -/

namespace Sys2Proof.Proofs

open Sys2Proof Sys2Proof.Machine Sys2Proof.Safety

/-! ## Appending all bytes or none (41_serializer.md rule R94) -/

/-- The end of a command that appends the bytes: refused whole where they do not fit, else their count in RES0. -/
def appendWhole (s : State) (bs : List Byte) : Result :=
  if 6144 < s.sb.length + bs.length then .next (finished s .bufferOverflow 1 0 0 false)
  else .next (finished { s with sb := s.sb ++ bs } .noError 0 (BitVec.ofNat 16 bs.length) 0 false)

/-- The capacity test, the reads and the completion that the three commands share. -/
theorem stage_eq_appendWhole (s : State) {k : Nat} {r : Except Fault (List Byte)} {bs : List Byte} (hr : r = .ok bs)
    (hk : bs.length = k) :
    (if s.fits k then orFault r fun v => .next ((s.append v).succeed (BitVec.ofNat 16 k) 0 false)
      else .next (s.reject .bufferOverflow 1)) = appendWhole s bs := by
  subst hr hk
  rw [orFault_ok, appendWhole]
  by_cases h : s.fits bs.length = true
  · rw [if_pos h, if_neg (Nat.not_lt.2 ((fits_iff s bs.length).1 h))]
    rfl
  · rw [if_neg h, if_pos (Nat.not_le.1 (mt (fits_iff s bs.length).2 h))]
    rfl

/-- From `s` to `t` a list of bytes has been appended: RES0 of them, within the capacity, or none with an error. -/
def AppendsAllOrNothing (s t : State) : Prop :=
  ∃ bs : List Byte, t.sb = s.sb ++ bs ∧ t.sbptr = s.sbptr ∧
    (t.err = .noError → bs.length = t.res0.toNat ∧ t.sb.length ≤ 6144) ∧ (t.err ≠ .noError → bs = [])

theorem appendsNothing_of_error (s : State) {e : ErrCode} (info : BitVec 4) (he : e ≠ .noError) :
    AppendsAllOrNothing s (finished s e info 0 0 false) :=
  ⟨[], (List.append_nil _).symm, rfl, fun h => absurd h he, fun _ => rfl⟩

theorem appendWhole_allOrNothing {s t : State} {bs : List Byte} (h : appendWhole s bs = .next t) :
    AppendsAllOrNothing s t := by
  unfold appendWhole at h
  split at h
  · cases h
    exact appendsNothing_of_error s 1 (by decide)
  · next hroom =>
    have hcount : (BitVec.ofNat 16 bs.length).toNat = bs.length := Nat.mod_eq_of_lt (by omega)
    have hcap : (s.sb ++ bs).length ≤ 6144 := List.length_append ▸ Nat.not_lt.1 hroom
    cases h
    exact ⟨bs, rfl, rfl, fun _ => ⟨hcount.symm, hcap⟩, fun hne => absurd rfl hne⟩

/-! ## The commands -/

theorem exec_wrlog (s : State) : exec .wrlog s = appendWhole s (entryBytes s.img s.arg0.toNat) := by
  rw [← indexOperand_eq]
  exact stage_eq_appendWhole s (logbookEntry_eq _ _) (entryBytes_length _ _)

theorem exec_wrident (s : State) : exec .wrident s = appendWhole s (identityBytes s.img) :=
  stage_eq_appendWhole s (deviceIdentity_eq _) (identityBytes_length _)

theorem exec_wrprof_outside {s : State} (h : 0x600 ≤ s.arg0.toNat) :
    exec .wrprof s = .next (finished s .operandError 2 0 0 false) := by
  rw [← indexOperand_eq] at h
  exact if_pos h

theorem exec_wrprof_inside {s : State} (h : s.arg0.toNat < 0x600) :
    exec .wrprof s = appendWhole s (sampleBytes s.img s.arg0.toNat s.arg1.toNat) := by
  rw [← indexOperand_eq] at h ⊢
  exact (if_neg (Nat.not_le.2 h)).trans <|
    stage_eq_appendWhole s (profileSamples_eq _ _ h) (sampleBytes_length _ _ _)

/-! ## The statements -/

/-- Settles O17: by the operand test, then by the room for the samples, whose count is ARG1. -/
theorem wrprofAppendsTheSamples : Obligations.WrprofAppendsTheSamples := by
  refine ⟨decode_encode .wrprof, fun s => ?_⟩
  by_cases h : 0x600 ≤ s.arg0.toNat
  · rw [if_pos h, exec_wrprof_outside h]
  · rw [if_neg h, exec_wrprof_inside (Nat.not_le.1 h), appendWhole, sampleBytes_length, BitVec.ofNat_toNat,
      BitVec.setWidth_eq]

/-- Settles O19: WRPROF outside the ring appends nothing; every other end is that of `appendWhole`. -/
theorem serializersAppendAllOrNothing : Obligations.SerializersAppendAllOrNothing := by
  intro i hi s t h
  change AppendsAllOrNothing s t
  simp only [List.mem_cons, List.not_mem_nil, or_false] at hi
  rcases hi with rfl | rfl | rfl
  · exact appendWhole_allOrNothing ((exec_wrlog s).symm.trans h)
  · rcases Nat.lt_or_ge s.arg0.toNat 0x600 with hin | hout
    · exact appendWhole_allOrNothing ((exec_wrprof_inside hin).symm.trans h)
    · rw [exec_wrprof_outside hout] at h
      cases h
      exact appendsNothing_of_error s 2 (by decide)
  · exact appendWhole_allOrNothing ((exec_wrident s).symm.trans h)

/-- Settles O15: a cleared buffer, completed. -/
theorem sbclrStartsANewBuffer : Obligations.SbclrStartsANewBuffer := ⟨decode_encode .sbclr, fun _ => rfl⟩

/-- Settles O16: the entry's twelve bytes, whole or not at all. -/
theorem wrlogAppendsTheEntry : Obligations.WrlogAppendsTheEntry := ⟨decode_encode .wrlog, exec_wrlog⟩

/-- Settles O18: the four identity bytes, whole or not at all. -/
theorem wridentAppendsTheIdentity : Obligations.WridentAppendsTheIdentity :=
  ⟨decode_encode .wrident, exec_wrident⟩

end Sys2Proof.Proofs
end


section
/-! The codec: the short message, the checksums that close the units, and the chunks of a buffer. -/

namespace Sys2Proof.Proofs

open Sys2Proof Sys2Proof.Machine Sys2Proof.Safety

/-! ## Units closed by their checksum (42_codec.md rules R100, R101) -/

theorem xorAll_cons (b : Byte) (l : List Byte) : xorAll (b :: l) = b ^^^ xorAll l := by
  simp only [← xor8_eq_xorAll, xor8]

theorem xorAll_append (l m : List Byte) : xorAll (l ++ m) = xorAll l ^^^ xorAll m := by
  simp only [← xor8_eq_xorAll, xor8_append]

theorem xorAll_singleton (b : Byte) : xorAll [b] = b := BitVec.zero_xor

/-- A unit followed by its own checksum. -/
def checked (l : List Byte) : List Byte := l ++ [xorAll l]

theorem xorAll_checked (l : List Byte) : xorAll (checked l) = 0 := by
  rw [checked, xorAll_append, xorAll_singleton, BitVec.xor_self]
  rfl

theorem checked_length (l : List Byte) : (checked l).length = l.length + 1 := List.length_append

theorem bulkPacket_eq_checked (d : List Byte) : bulkPacket d = checked (BitVec.ofNat 8 d.length :: d) := by
  rw [bulkPacket, checked, xorAll_cons]

theorem closed_eq_checked (sb : List Byte) : closed sb = checked (littleEndian (sb.length - 2) ++ sb.drop 2) := rfl

/-- The part of a short message that its inner checksum covers: inner size, command byte, text. -/
def innerUnit (d : List Byte) : List Byte := BitVec.ofNat 8 d.length :: 0x00 :: d

theorem innerUnit_length (d : List Byte) : (innerUnit d).length = d.length + 2 := rfl

theorem xorAll_innerUnit (d : List Byte) : xorAll (innerUnit d) = BitVec.ofNat 8 d.length ^^^ xorAll d := by
  rw [innerUnit, xorAll_cons, xorAll_cons]
  exact congrArg _ BitVec.zero_xor

theorem shortMessage_eq_checked (d : List Byte) :
    shortMessage d = BitVec.ofNat 8 (d.length + 3) ::
      (checked (innerUnit d) ++ [BitVec.ofNat 8 (d.length + 3) ^^^ xorAll (innerUnit d)]) := by
  rw [checked, List.append_assoc, xorAll_innerUnit]
  rfl

theorem shortMessage_inner (d : List Byte) : ((shortMessage d).drop 1).take (d.length + 3) = checked (innerUnit d) := by
  rw [shortMessage_eq_checked]
  exact List.take_left' (checked_length _)

/-- The outer size cancels against the outer checksum, and the inner packet against itself. -/
theorem xorAll_shortMessage (d : List Byte) : xorAll (shortMessage d) = xorAll (innerUnit d) := by
  rw [shortMessage_eq_checked, xorAll_cons, xorAll_append, xorAll_checked, xorAll_singleton]
  simp [← BitVec.xor_assoc]

/-- Behind the outer size stand the `d.length + 2` bytes of the inner unit, then their checksum. -/
theorem shortMessage_innerChecksum (d : List Byte) :
    (shortMessage d)[d.length + 3]? = some (xorAll (innerUnit d)) := by
  have hlast : (checked (innerUnit d))[d.length + 2]? = some (xorAll (innerUnit d)) :=
    List.getElem?_concat_length
  have hpos : d.length + 2 < (checked (innerUnit d)).length := by
    rw [checked_length, innerUnit_length]
    exact Nat.lt_succ_self _
  rw [shortMessage_eq_checked, List.getElem?_cons_succ, List.getElem?_append_left hpos, hlast]

/-! ## MSGENC and ENVCLOSE -/

/-- The branches of MSGENC one by one: each test in the terms of the claims, each end through `finished`. -/
theorem exec_msgenc (s : State) : exec .msgenc s =
    if s.sb = [] then .next (finished { s with fb := [], fbptr := 0 } .noError 0 0 0 false)
    else if 123 < s.sb.length then .next (finished s .operandError 3 0 0 false)
    else if 0x00 ∈ s.sb then .next (finished s .operandError 4 0 0 false)
    else .next (finished { s with fb := shortMessage s.sb, fbptr := 0 } .noError 0
      (BitVec.ofNat 16 (s.sb.length + 5)) 0 false) := by
  rw [← messageFrame_eq]
  exact if_congr List.length_eq_zero_iff rfl <| if_congr Iff.rfl rfl <| if_congr List.contains_iff_mem rfl rfl

/-- ENVCLOSE in the terms of the claims; the checksum in RES1 is that of the patched bytes. -/
theorem exec_envclose (s : State) : exec .envclose s =
    if s.sb.length < 2 then .next (finished s .operandError 5 0 0 false)
    else if 6144 < s.sb.length + 1 then .next (finished s .bufferOverflow 1 0 0 false)
    else .next (finished { s with sb := closed s.sb } .noError 0 (BitVec.ofNat 16 (s.sb.length - 2))
      ((0 : Byte) ++ xorAll (littleEndian (s.sb.length - 2) ++ s.sb.drop 2)) false) := by
  rw [← patchSize_eq, ← xor8_eq_xorAll, ← zext16_byte]
  refine if_congr Iff.rfl rfl ?_
  by_cases hfits : s.fits 1 = true
  · rw [if_pos hfits, if_neg (Nat.not_lt.2 ((fits_iff s 1).1 hfits)), closeEnvelope_eq]
    rfl
  · rw [if_neg hfits, if_pos (Nat.not_le.1 (mt (fits_iff s 1).2 hfits))]
    rfl

/-- Without an error MSGENC has taken its last branch, the text being non-empty. -/
theorem fb_of_msgenc {s t : State} (h : exec .msgenc s = .next t) (herr : t.err = .noError) (hne : s.sb ≠ []) :
    t.fb = shortMessage s.sb := by
  rw [exec_msgenc, if_neg hne] at h
  split at h
  · cases h
    nomatch herr
  · split at h <;> cases h
    · nomatch herr
    · rfl

theorem sb_of_envclose {s t : State} (h : exec .envclose s = .next t) (herr : t.err = .noError) :
    t.sb = closed s.sb := by
  rw [exec_envclose] at h
  split at h
  · cases h
    nomatch herr
  · split at h <;> cases h
    · nomatch herr
    · rfl

/-! ## The chunks of a buffer (42_codec.md rules R104, R105) -/

theorem bulkPacket_payload (d : List Byte) : ((bulkPacket d).drop 1).dropLast = d := List.dropLast_concat

/-- The chunks before number `n` are the first `126 * n` bytes. -/
theorem flatMap_chunkOf (b : List Byte) (n : Nat) : (List.range n).flatMap (chunkOf b) = b.take (126 * n) := by
  induction n with
  | zero => rfl
  | succ n ih =>
    rw [List.range_succ, List.flatMap_append, ih, List.flatMap_singleton, chunkOf, Nat.mul_succ, List.take_add]

theorem flatMap_chunkOf_all (b : List Byte) : (List.range (chunkCount b)).flatMap (chunkOf b) = b := by
  rw [flatMap_chunkOf, List.take_of_length_le]
  unfold chunkCount
  omega

/-- Every chunk but the last is full, and the last holds the remainder. -/
theorem chunkOf_length_of_lt {b : List Byte} {k : Nat} (hk : k < chunkCount b) :
    (chunkOf b k).length =
      if k + 1 < chunkCount b then 126 else if b.length % 126 = 0 then 126 else b.length % 126 := by
  rw [chunkOf_length]
  unfold chunkCount at *
  split_ifs <;> omega

theorem sum_bulkPacket_length (b : List Byte) :
    ((List.range (chunkCount b)).map fun k => (bulkPacket (chunkOf b k)).length).sum = b.length + 2 * chunkCount b := by
  have hpayload : ((List.range (chunkCount b)).map fun k => (chunkOf b k).length).sum = b.length := by
    rw [← List.length_flatMap, flatMap_chunkOf_all]
  simp only [bulkPacket_length, List.sum_map_add, hpayload, List.map_const', List.sum_replicate, List.length_range,
    smul_eq_mul, Nat.mul_comm]

/-- The offset of a chunk fits CHOFF, and the packet built there is the chunk's. -/
theorem buildChunk_at {s : State} (hcap : s.sb.length ≤ 6144) {k : Nat} (hk : k < chunkCount s.sb) :
    ({ s with choff := BitVec.ofNat 13 (126 * k) } : State).buildChunk.fb = bulkPacket (chunkOf s.sb k) := by
  have hoff : (BitVec.ofNat 13 (126 * k)).toNat = 126 * k := by
    refine Nat.mod_eq_of_lt ?_
    unfold chunkCount at hk
    omega
  rw [State.buildChunk_fb, chunkPacket_eq, hoff]
  rfl

/-! ## The statements -/

/-- Settles O21: the chunk, the inner packet and the envelope are `checked` units. -/
theorem checksumsCloseTheirUnits : Obligations.ChecksumsCloseTheirUnits := by
  refine ⟨fun s => ?_, fun s t h herr hne => ?_, fun s t h herr => ?_⟩
  · rw [State.buildChunk_fb, chunkPacket_eq, bulkPacket_eq_checked, xorAll_checked]
  · rw [fb_of_msgenc h herr hne, shortMessage_inner, xorAll_checked, shortMessage_innerChecksum, xorAll_shortMessage]
    exact ⟨rfl, rfl⟩
  · rw [sb_of_envclose h herr, closed_eq_checked, xorAll_checked]

/-- Settles O22: at each chunk's offset its packet is built, so that the three clauses are about `chunkOf`. -/
theorem chunksReconstructTheBuffer : Obligations.ChunksReconstructTheBuffer := by
  intro s hcap
  refine ⟨?_, fun k hk => ?_, ?_⟩
  · refine (List.flatMap_congr fun k hk => ?_).trans (flatMap_chunkOf_all s.sb)
    rw [buildChunk_at hcap (List.mem_range.1 hk), bulkPacket_payload]
  · rw [buildChunk_at hcap hk, bulkPacket_length, chunkOf_length_of_lt hk]
  · rw [← sum_bulkPacket_length]
    refine congrArg List.sum (List.map_congr_left fun k hk => ?_)
    rw [buildChunk_at hcap (List.mem_range.1 hk)]

/-- Settles O20: the decoder's row of the table, then the four branches. -/
theorem msgencBuildsTheFrame : Obligations.MsgencBuildsTheFrame := ⟨decode_encode .msgenc, exec_msgenc⟩

end Sys2Proof.Proofs
end


section
/-! The transport: what each step of a transfer does, and what runs of whole transfers come to. -/

namespace Sys2Proof.Proofs

open Sys2Proof Sys2Proof.Machine Sys2Proof.Safety

/-! ## The two commands -/

/-- PKTSEND in the terms of the claims. -/
theorem exec_pktsend (s : State) : exec .pktsend s =
    if s.fb = [] then .next (finished { s with retry := 0, tstate := .done } .noError 0 0 0 false)
    else .next { s with retry := 0, tstate := .sending, txpos := 0, sleeping := none } :=
  if_congr List.length_eq_zero_iff rfl rfl

theorem exec_bulksend_empty {s : State} (h : s.sb = []) : exec .bulksend s =
    .next (finished { s with retry := 0, choff := 0, chcnt := 0, tstate := .done } .noError 0 0 0 false) := by
  have hnone : ¬ ((0 : BitVec 13).toNat < s.sb.length) := by simp [h]
  exact congrArg _ (nextChunk_done (s := { s with retry := 0, choff := 0, chcnt := 0 }) hnone)

theorem exec_bulksend_nonempty {s : State} (h : s.sb ≠ []) : exec .bulksend s =
    .next { s with retry := 0, choff := 0, chcnt := 0, fb := bulkPacket (chunkOf s.sb 0), tstate := .sending,
                   txpos := 0, sleeping := none } := by
  have hmore : (0 : BitVec 13).toNat < s.sb.length := List.length_pos_iff.2 h
  exact congrArg _ (nextChunk_more (s := { s with retry := 0, choff := 0, chcnt := 0 }) hmore)

/-! ## A poll (43_transport.md rule R111) -/

theorem sequencer_poll {s : State} (hb : s.busy = true) (ht : s.tstate = .awaitingAck) (hs : s.sleeping = none) :
    s.sequencerStep = .next s.pollStep := by
  rw [sequencer_waiting hb ht, waitStep_poll hs]

theorem step_poll {s : State} (hb : s.busy = true) (ht : s.tstate = .awaitingAck) (hs : s.sleeping = none)
    (he : s.env = []) : step s = .next s.pollStep :=
  (step_nil he).trans (sequencer_poll hb ht hs)

theorem pollStep_ack {s : State} {rest : List Byte} (h : s.rx = 0x06 :: rest) :
    s.pollStep = State.onAck { s with rx := rest } := by
  simp only [State.pollStep, h, classify_ack]

theorem pollStep_noise {s : State} {b : Byte} {rest : List Byte} (h : s.rx = b :: rest) (hb : b = 0x00 ∨ b = 0xFF) :
    s.pollStep = State.timeoutOrSleep { s with rx := rest } := by
  simp only [State.pollStep, h, classify_noise hb]

theorem pollStep_nak {s : State} {b : Byte} {rest : List Byte} (h : s.rx = b :: rest) (hb : IsNak b) :
    s.pollStep = State.onNak { s with rx := rest } := by
  obtain ⟨hack, hlow, hhigh⟩ := hb
  simp only [State.pollStep, h, classify_nak hack hlow hhigh]

/-! ## How a wait ends -/

theorem sendsOnePacket_iff_op (s : State) : s.sendsOnePacket = true ↔ s.op = 0x31 := beq_iff_eq

/-- A transfer given up reports its counts, PKTSEND reports 0 (43_transport.md rule R117). -/
theorem failTransfer_eq (s : State) (sub : BitVec 4) : s.failTransfer sub =
    finished { s with tstate := .failed } .sendError sub
      (if s.op = 0x31 then 0 else s.chcnt.setWidth 16) (if s.op = 0x31 then 0 else s.choff.setWidth 16) false := by
  by_cases hop : s.op = 0x31
  · rw [State.failTransfer, if_pos ((sendsOnePacket_iff_op s).2 hop), if_pos hop, if_pos hop]
    rfl
  · rw [State.failTransfer, if_neg (mt (sendsOnePacket_iff_op s).1 hop), if_neg hop, if_neg hop]
    rfl

theorem timeoutOrSleep_eq (s : State) : s.timeoutOrSleep =
    if 10000 ≤ (s.now - s.t0).toNat then
      finished { s with tstate := .failed } .sendError 1
        (if s.op = 0x31 then 0 else s.chcnt.setWidth 16) (if s.op = 0x31 then 0 else s.choff.setWidth 16) false
    else { s with sleeping := some s.now } := by
  rw [← failTransfer_eq]
  rfl

theorem onAck_packet {s : State} (h : s.op = 0x31) :
    s.onAck = finished { s with retry := 0, tstate := .done } .noError 0 1 0 false :=
  if_pos ((sendsOnePacket_iff_op s).2 h)

/-- An acknowledged chunk: the loop head of the bulk transfer, with the offset and the count moved on. -/
theorem onAck_bulk {s : State} (h : s.op ≠ 0x31) :
    s.onAck = State.nextChunk { s with
      retry := 0, choff := s.choff + BitVec.ofNat 13 (s.fb.length - 2), chcnt := s.chcnt + 1 } :=
  if_neg (mt (sendsOnePacket_iff_op s).1 h)

theorem toNat_retry_succ {r : BitVec 4} (h : r.toNat ≤ 9) : (r + 1).toNat = r.toNat + 1 :=
  BitVec.toNat_add_of_lt (by simp; omega)

theorem onNak_resends {s : State} (h : s.retry.toNat < 9) :
    s.onNak = State.startSending { s with retry := s.retry + 1 } :=
  onNak_again (by rw [toNat_retry_succ h.le]; omega)

theorem onNak_fails {s : State} (h : s.retry = 9) : s.onNak =
    finished { s with retry := 10, tstate := .failed } .sendError 2
      (if s.op = 0x31 then 0 else s.chcnt.setWidth 16) (if s.op = 0x31 then 0 else s.choff.setWidth 16) false := by
  have hten : s.retry + 1 = 10 := by rw [h]; rfl
  rw [onNak_last (congrArg BitVec.toNat hten), failTransfer_eq, hten]

/-! ## The statements about one step -/

/-- Settles O23, by whether FB is empty. -/
theorem pktsendSendsTheOuterPacket : Obligations.PktsendSendsTheOuterPacket := exec_pktsend

/-- Settles O24, by whether SB is empty: the loop head at offset 0. -/
theorem bulksendSendsTheFirstChunk : Obligations.BulksendSendsTheFirstChunk := by
  intro s
  split
  · next h => exact exec_bulksend_empty h
  · next h => exact exec_bulksend_nonempty h

/-- Settles O27: PKTSEND is done; a bulk transfer goes through its loop head, by what is left of SB. -/
theorem ackAdvancesTheTransfer : Obligations.AckAdvancesTheTransfer := by
  intro s rest hb ht hs he hrx
  rw [step_poll hb ht hs he, pollStep_ack hrx]
  refine ⟨fun hop => congrArg _ (onAck_packet (s := { s with rx := rest }) hop), ?_⟩
  rintro hop off rfl
  rw [onAck_bulk (s := { s with rx := rest }) hop, BitVec.ofNat_toNat, BitVec.setWidth_eq]
  refine ⟨fun hmore => congrArg _ (nextChunk_more hmore), fun hdone => ?_⟩
  rw [nextChunk_done (Nat.not_lt.2 hdone), zext16, zext16, BitVec.ofNat_toNat]

/-- Settles O28: the byte is taken from RX, and the poll ends as a silent one. -/
theorem noiseDoesNotExtendTheWait : Obligations.NoiseDoesNotExtendTheWait := by
  intro s b rest hb ht hs he hrx hnoise
  rw [step_poll hb ht hs he, pollStep_noise hrx hnoise, timeoutOrSleep_eq, apply_ite Host.Outcome.next]

/-- Settles O29, by the budget left. -/
theorem nakResendsOrFails : Obligations.NakResendsOrFails := by
  intro s b rest hb ht hs he hrx hnak
  rw [step_poll hb ht hs he, pollStep_nak hrx hnak]
  exact ⟨fun h => congrArg _ (onNak_resends (s := { s with rx := rest }) h),
    fun h => congrArg _ (onNak_fails (s := { s with rx := rest }) h)⟩

/-- Settles O30: the timeout test and its two outcomes. -/
theorem silentPollTimesOutOrSleeps : Obligations.SilentPollTimesOutOrSleeps := by
  intro s hb ht hs he hrx
  rw [step_poll hb ht hs he, pollStep_silent hrx, timeoutOrSleep_eq, apply_ite Host.Outcome.next]

/-! ## A packet on the wire -/

/-- A packet is being handed to a transport that is ready, and the environment is silent. -/
structure Transmitting (s : State) : Prop where
  busy : s.busy = true
  sending : s.tstate = .sending
  ready : s.txReady = true
  silent : s.env = []

theorem step_transmitting {s : State} (h : Transmitting s) : step s = .next s.emitStep :=
  (step_nil h.silent).trans (sequencer_sending h.busy h.sending)

/-- The bytes have gone out and the wait for the answer begins (43_transport.md rules R109, R110). -/
def sent (s : State) (bs : List Byte) : State :=
  { s with tx := s.tx ++ bs, tstate := .awaitingAck, t0 := s.now, txpos := 0, sleeping := none }

theorem sent_nil (s : State) : sent s [] = s.enterWait := by
  rw [sent, List.append_nil]
  rfl

theorem sent_cons (s : State) (b : Byte) (bs : List Byte) (n : Nat) :
    sent { s with tx := s.tx ++ [b], txpos := n } bs = sent s (b :: bs) := by
  simp [sent]

/-- From any position on, the bytes of `FB` still to come are sent one a step, and the wait begins. -/
theorem run_emit_remaining (n : Nat) {s : State} (h : Transmitting s) (hn : s.txpos + n = s.fb.length) :
    Host.Core.run core (n + 1) s = .next (sent s (s.fb.drop s.txpos)) := by
  induction n generalizing s with
  | zero =>
    have hend : s.fb.length ≤ s.txpos := hn.ge
    rw [run_succ 0 (step_transmitting h), run_zero, emitStep_end hend, List.drop_of_length_le hend, sent_nil]
  | succ n ih =>
    have hlt : s.txpos < s.fb.length := by omega
    have hrest := ih (s := { s with tx := s.tx ++ [s.fb[s.txpos]], txpos := s.txpos + 1 }) { h with } (by simp; omega)
    rw [run_succ _ (step_transmitting h), emitStep_byte (List.getElem?_eq_getElem hlt) h.ready, hrest, sent_cons,
      List.drop_eq_getElem_cons hlt]

/-- A whole packet is sent. -/
theorem run_transmission {s : State} (h : Transmitting s) (hpos : s.txpos = 0) :
    Host.Core.run core (s.fb.length + 1) s = .next (sent s s.fb) := by
  rw [run_emit_remaining s.fb.length h (by omega), hpos, List.drop_zero]

/-- A whole packet is sent and the receive side is polled once. -/
theorem run_transmission_poll {s : State} (h : Transmitting s) (hpos : s.txpos = 0) :
    Host.Core.run core (s.fb.length + 2) s = .next (sent s s.fb).pollStep := by
  have hpoll : step (sent s s.fb) = .next (sent s s.fb).pollStep := step_poll h.busy rfl rfl h.silent
  rw [run_add (s.fb.length + 1) 1 (run_transmission h hpos), run_succ 0 hpoll, run_zero]

/-- Settles O25: the transmission of all bytes of FB from the first on. -/
theorem sendingEmitsThePacketInOrder : Obligations.SendingEmitsThePacketInOrder :=
  fun _ hb ht hpos hready he => run_transmission ⟨hb, ht, hready, he⟩ hpos

/-! ## A packet that is refused and sent again (43_transport.md rules R108, R114) -/

/-- The packet has been sent and refused, the refusal is counted, and the same packet is about to be sent again. -/
def resending (s : State) (rx : List Byte) : State :=
  State.startSending { sent s s.fb with rx := rx, retry := s.retry + 1 }

/-- One NAK within the budget: the packet has gone out once, and goes out again. -/
theorem run_refused_transmission {s : State} {b : Byte} {rest : List Byte} (h : Transmitting s) (hpos : s.txpos = 0)
    (hb : IsNak b) (hbudget : s.retry.toNat < 9) (hrx : s.rx = b :: rest) :
    Host.Core.run core (s.fb.length + 2) s = .next (resending s rest) := by
  have hnak : (sent s s.fb).pollStep = State.onNak { sent s s.fb with rx := rest } := pollStep_nak hrx hb
  rw [run_transmission_poll h hpos, hnak]
  exact congrArg _ (onNak_resends (s := { sent s s.fb with rx := rest }) hbudget)

/-- The packet has been sent `n + 1` times and refused `n` times; the last answer is not read yet. -/
def retransmitted (s : State) (n : Nat) (rx : List Byte) : State :=
  { sent s (List.replicate (n + 1) s.fb).flatten with rx := rx, retry := s.retry + BitVec.ofNat 4 n }

theorem retransmitted_zero (s : State) : retransmitted s 0 s.rx = sent s s.fb := by
  simp [retransmitted, sent]

theorem retransmitted_resending (s : State) (n : Nat) (rx rx' : List Byte) :
    retransmitted (resending s rx) n rx' = retransmitted s (n + 1) rx' := by
  have hretry : s.retry + 1 + BitVec.ofNat 4 n = s.retry + BitVec.ofNat 4 (n + 1) := by
    rw [Nat.add_comm n 1, BitVec.ofNat_add, BitVec.add_assoc]
    rfl
  have htx : s.tx ++ s.fb ++ (List.replicate (n + 1) s.fb).flatten =
      s.tx ++ (List.replicate (n + 1 + 1) s.fb).flatten := by
    rw [List.append_assoc, ← List.flatten_cons, ← List.replicate_succ]
  simp only [retransmitted, resending, State.startSending, sent, hretry, htx]

/-- As long as the budget lasts, every NAK costs one more transmission of the same packet; then the next answer is
polled for. -/
theorem run_naks (naks : List Byte) {s : State} {rx : List Byte} (h : Transmitting s) (hpos : s.txpos = 0)
    (hnaks : ∀ b ∈ naks, IsNak b) (hbudget : s.retry.toNat + naks.length ≤ 9) (hrx : s.rx = naks ++ rx) :
    Host.Core.run core ((naks.length + 1) * (s.fb.length + 2)) s =
      .next (retransmitted s naks.length rx).pollStep := by
  induction naks generalizing s with
  | nil =>
    obtain rfl : s.rx = rx := hrx
    rw [List.length_nil, retransmitted_zero, Nat.zero_add, Nat.one_mul, run_transmission_poll h hpos]
  | cons b naks ih =>
    obtain ⟨hb, hrest⟩ := List.forall_mem_cons.1 hnaks
    rw [List.length_cons] at hbudget ⊢
    have hround := run_refused_transmission h hpos hb (by omega) hrx
    have hsucc : (s.retry + 1).toNat = s.retry.toNat + 1 := toNat_retry_succ (by omega)
    have hagain := ih (s := resending s (naks ++ rx)) ⟨h.busy, rfl, h.ready, h.silent⟩ rfl hrest
      (show (s.retry + 1).toNat + _ ≤ 9 by omega) rfl
    rw [Nat.succ_mul, Nat.add_comm, run_add _ _ hround, ← retransmitted_resending s naks.length (naks ++ rx)]
    exact hagain

/-- PKTSEND has been accepted and the transmission of FB begins. -/
def packetStarted (s : State) : State :=
  State.startSending { ({ s with env := [] } : State).accept 0x0031 with retry := 0 }

theorem step_pktsend {s : State} (hb : s.busy = false) (he : s.env = [.hostWrite .cmd 0x0031]) (hfb : s.fb ≠ []) :
    step s = .next (packetStarted s) :=
  (step_command hb he (decode_encode .pktsend)).trans <| (exec_pktsend _).trans (if_neg hfb)

/-- PKTSEND with up to nine NAKs ahead of the answer that decides: `rx` begins with that answer. -/
theorem run_pktsend_naks {s : State} {naks rx : List Byte} (hb : s.busy = false)
    (he : s.env = [.hostWrite .cmd 0x0031]) (hready : s.txReady = true) (hfb : s.fb ≠ [])
    (hlen : naks.length ≤ 9) (hnaks : ∀ b ∈ naks, IsNak b) (hrx : s.rx = naks ++ rx) :
    Host.Core.run core (1 + (naks.length + 1) * (s.fb.length + 2)) s =
      .next (retransmitted (packetStarted s) naks.length rx).pollStep := by
  have hbudget : (0 : BitVec 4).toNat + naks.length ≤ 9 := (Nat.zero_add _).trans_le hlen
  rw [Nat.add_comm, run_succ _ (step_pktsend hb he hfb)]
  exact run_naks naks (s := packetStarted s) ⟨rfl, rfl, hready, rfl⟩ rfl hnaks hbudget hrx

/-- Settles O32: after the NAKs the ACK is polled. -/
theorem packetIsDeliveredAfterNaks : Obligations.PacketIsDeliveredAfterNaks := by
  intro s naks rest hb he hready hfb hlen hnaks hrx
  rw [run_pktsend_naks hb he hready hfb hlen hnaks hrx, pollStep_ack rfl, onAck_packet rfl]
  rfl

/-- Settles O33: nine NAKs use the budget up, and the poll after them reads the tenth. -/
theorem tenNaksFailTheTransfer : Obligations.TenNaksFailTheTransfer := by
  intro s naks rest hb he hready hfb hlen hnaks hrx
  have hne : naks ≠ [] := by rintro rfl; cases hlen
  obtain ⟨init, b, rfl⟩ := (List.eq_nil_or_concat' naks).resolve_left hne
  have hinit : init.length = 9 := by simpa using hlen
  rw [List.append_assoc] at hrx
  have hrun := run_pktsend_naks hb he hready hfb hinit.le (fun c hc => hnaks c (by simp [hc])) hrx
  rw [hinit] at hrun
  rw [hrun, pollStep_nak rfl (hnaks b (by simp)), onNak_fails rfl]
  rfl

/-! ## A bulk transfer (43_transport.md rule R120) -/

/-- The packet has been sent and acknowledged, and the offset and the count have moved on. -/
def acknowledged (s : State) (rx : List Byte) : State :=
  { sent s s.fb with rx := rx, retry := 0, choff := s.choff + BitVec.ofNat 13 (s.fb.length - 2), chcnt := s.chcnt + 1 }

/-- A chunk is sent and acknowledged; the loop head decides what follows. -/
theorem run_acknowledged_chunk {s : State} {rest : List Byte} (h : Transmitting s) (hpos : s.txpos = 0)
    (hop : s.op ≠ 0x31) (hrx : s.rx = 0x06 :: rest) :
    Host.Core.run core (s.fb.length + 2) s = .next (acknowledged s rest).nextChunk := by
  have hack : (sent s s.fb).pollStep = State.onAck { sent s s.fb with rx := rest } := pollStep_ack hrx
  rw [run_transmission_poll h hpos, hack]
  exact congrArg _ (onAck_bulk (s := { sent s s.fb with rx := rest }) hop)

theorem HoldsChunk.fb_eq {s : State} (h : HoldsChunk s) : s.fb = bulkPacket (chunkOf s.sb s.chcnt.toNat) := by
  obtain ⟨-, -, hfb⟩ := h
  exact hfb

theorem HoldsChunk.fb_length {s : State} (h : HoldsChunk s) :
    s.fb.length = min 126 (s.sb.length - 126 * s.chcnt.toNat) + 2 := by
  rw [h.fb_eq, bulkPacket_length, chunkOf_length]

/-- After an acknowledged chunk CHOFF is at the next one, or at the end of SB. -/
theorem acknowledged_choff {s : State} (h : HoldsChunk s) (hcap : s.sb.length ≤ 6144) (rx : List Byte) :
    (acknowledged s rx).choff.toNat = min (126 * (s.chcnt.toNat + 1)) s.sb.length := by
  have hlen := h.fb_length
  obtain ⟨hlt, hk, -⟩ := h
  rw [acknowledged, BitVec.toNat_add, BitVec.toNat_ofNat]
  omega

theorem acknowledged_chcnt {s : State} (h : HoldsChunk s) (rx : List Byte) :
    (acknowledged s rx).chcnt.toNat = s.chcnt.toNat + 1 := by
  obtain ⟨-, hk, -⟩ := h
  exact BitVec.toNat_add_of_lt (by simp; omega)

/-- SB has been delivered, the last of its packets in FB; `bs` are the bytes that this has put on the wire. -/
def delivered (s : State) (bs rx : List Byte) : State :=
  finished
    { sent s bs with
      rx := rx, retry := 0, choff := BitVec.ofNat 13 s.sb.length, chcnt := BitVec.ofNat 13 (chunkCount s.sb),
      fb := bulkPacket (chunkOf s.sb (chunkCount s.sb - 1)), tstate := .done }
    .noError 0 (BitVec.ofNat 16 (chunkCount s.sb)) (BitVec.ofNat 16 s.sb.length) false

/-- The acknowledged chunk is not the last: the next one is in FB and about to be sent. -/
def nextChunkStarted (s : State) (rx : List Byte) : State :=
  State.startSending { acknowledged s rx with fb := bulkPacket (chunkOf s.sb (s.chcnt.toNat + 1)) }

theorem delivered_nextChunkStarted (s : State) (bs rx rx' : List Byte) :
    delivered (nextChunkStarted s rx) bs rx' = delivered s (s.fb ++ bs) rx' := by
  simp only [delivered, nextChunkStarted, State.startSending, acknowledged, sent, List.append_assoc]

theorem nextChunk_acknowledged {s : State} (h : HoldsChunk s) (hcap : s.sb.length ≤ 6144) (rx : List Byte)
    (hmore : 126 * (s.chcnt.toNat + 1) < s.sb.length) :
    (acknowledged s rx).nextChunk = nextChunkStarted s rx ∧ HoldsChunk (nextChunkStarted s rx) ∧
      (nextChunkStarted s rx).chcnt.toNat = s.chcnt.toNat + 1 := by
  have hoff := acknowledged_choff h hcap rx
  have hcnt := acknowledged_chcnt h rx
  rw [min_eq_left hmore.le] at hoff
  refine ⟨?_, ⟨hoff.trans_lt hmore, hoff.trans (congrArg _ hcnt.symm), ?_⟩, hcnt⟩
  · rw [nextChunk_more (hoff ▸ hmore), hoff]
    rfl
  · exact congrArg (fun k => bulkPacket (chunkOf s.sb k)) hcnt.symm

theorem nextChunk_acknowledged_last {s : State} (h : HoldsChunk s) (hcap : s.sb.length ≤ 6144) (rx : List Byte)
    (hlast : s.chcnt.toNat + 1 = chunkCount s.sb) :
    (acknowledged s rx).nextChunk = delivered s s.fb rx := by
  have hend : s.sb.length ≤ 126 * (s.chcnt.toNat + 1) := by
    unfold chunkCount at hlast
    omega
  have hoff : (acknowledged s rx).choff.toNat = s.sb.length :=
    (acknowledged_choff h hcap rx).trans (min_eq_right hend)
  have hcnt : (acknowledged s rx).chcnt.toNat = chunkCount s.sb := (acknowledged_chcnt h rx).trans hlast
  have hfb : bulkPacket (chunkOf s.sb (chunkCount s.sb - 1)) = s.fb := by
    rw [← hlast, Nat.add_sub_cancel, h.fb_eq]
  rw [nextChunk_done (Nat.not_lt.2 hoff.ge), delivered, hfb, ← hcnt, ← hoff]
  simp only [BitVec.ofNat_toNat, BitVec.setWidth_eq]
  rfl

/-- From the chunk that FB holds on, every chunk of SB goes out once and is acknowledged. -/
theorem run_chunks (m : Nat) {s : State} {rest : List Byte} (h : Transmitting s) (hpos : s.txpos = 0)
    (hop : s.op ≠ 0x31) (hchunk : HoldsChunk s) (hcap : s.sb.length ≤ 6144)
    (hcount : s.chcnt.toNat + (m + 1) = chunkCount s.sb) (hrx : s.rx = List.replicate (m + 1) 0x06 ++ rest) :
    Host.Core.run core (s.sb.length - 126 * s.chcnt.toNat + 4 * (m + 1)) s =
      .next (delivered s
        ((List.range' s.chcnt.toNat (m + 1)).flatMap fun k => bulkPacket (chunkOf s.sb k)) rest) := by
  induction m generalizing s with
  | zero =>
    have hlen := hchunk.fb_length
    have hsteps : s.sb.length - 126 * s.chcnt.toNat + 4 * (0 + 1) = s.fb.length + 2 := by
      unfold chunkCount at hcount
      omega
    rw [hsteps, run_acknowledged_chunk h hpos hop hrx, nextChunk_acknowledged_last hchunk hcap _ hcount,
      List.range'_one, List.flatMap_singleton, ← hchunk.fb_eq]
    rfl
  | succ m ih =>
    have hlen := hchunk.fb_length
    have hmore : 126 * (s.chcnt.toNat + 1) < s.sb.length := by
      unfold chunkCount at hcount
      omega
    have hsteps : s.sb.length - 126 * s.chcnt.toNat + 4 * (m + 1 + 1) =
        (s.fb.length + 2) + (s.sb.length - 126 * (s.chcnt.toNat + 1) + 4 * (m + 1)) := by omega
    rw [List.replicate_succ, List.cons_append] at hrx
    have hround := run_acknowledged_chunk h hpos hop hrx
    obtain ⟨hnext, hchunk', hcnt⟩ := nextChunk_acknowledged hchunk hcap (List.replicate (m + 1) 0x06 ++ rest) hmore
    rw [hnext] at hround
    have hrest := ih (s := nextChunkStarted s _) ⟨h.busy, rfl, h.ready, h.silent⟩ rfl hop hchunk' hcap
      (by rw [hcnt, Nat.add_right_comm]; exact hcount) rfl
    rw [hcnt, delivered_nextChunkStarted] at hrest
    rw [hsteps, run_add _ _ hround, List.range'_succ, List.flatMap_cons, ← hchunk.fb_eq]
    exact hrest

/-- BULKSEND has been accepted and the transmission of the first chunk begins. -/
def bulkStarted (s : State) : State :=
  State.startSending { ({ s with env := [] } : State).accept 0x0032 with
    retry := 0, choff := 0, chcnt := 0, fb := bulkPacket (chunkOf s.sb 0) }

theorem step_bulksend {s : State} (hb : s.busy = false) (he : s.env = [.hostWrite .cmd 0x0032]) (hsb : s.sb ≠ []) :
    step s = .next (bulkStarted s) :=
  (step_command hb he (decode_encode .bulksend)).trans (exec_bulksend_nonempty hsb)

/-- Settles O34: the command's step, then the chunks from number 0 on. -/
theorem bulkTransferDeliversEveryChunk : Obligations.BulkTransferDeliversEveryChunk := by
  intro s rest hb he hready hsb hcap hrx
  have hlen : 0 < s.sb.length := List.length_pos_iff.2 hsb
  obtain ⟨m, hm⟩ : ∃ m, chunkCount s.sb = m + 1 := Nat.exists_eq_add_of_le' (by unfold chunkCount; omega)
  have hop : opcodeField 0x0032 ≠ 0x31 := by decide
  have hchunks := run_chunks m (s := bulkStarted s) (rest := rest) ⟨rfl, rfl, hready, rfl⟩ rfl hop
    ⟨hlen, rfl, rfl⟩ hcap (hm ▸ Nat.zero_add _) (hm ▸ hrx)
  have hwire : ((List.range' (bulkStarted s).chcnt.toNat (m + 1)).flatMap fun k =>
      bulkPacket (chunkOf (bulkStarted s).sb k)) = bulkStream s.sb := by
    rw [bulkStream, hm, List.range_eq_range']
    rfl
  rw [hwire, ← hm] at hchunks
  rw [Nat.add_assoc, Nat.add_comm, run_succ _ (step_bulksend hb he hsb)]
  exact hchunks

/-! ## Silence (43_transport.md rules R115, R122) -/

/-- The next poll will be silent: no byte has arrived, and no delay is under way. -/
structure AtSilentPoll (s : State) : Prop where
  busy : s.busy = true
  waiting : s.tstate = .awaitingAck
  awake : s.sleeping = none
  silent : s.rx = []

theorem sequencer_silent_poll {s : State} (h : AtSilentPoll s) : s.sequencerStep = .next s.timeoutOrSleep := by
  rw [sequencer_poll h.busy h.waiting h.awake, pollStep_silent h.silent]

theorem step_silent_poll {s : State} {rest : List Event} (h : AtSilentPoll s) (he : s.env = .turn :: rest) :
    step s = .next (State.timeoutOrSleep { s with env := rest }) :=
  (step_cons he).trans (sequencer_silent_poll (s := { s with env := rest }) { h with })

/-- A delay under way that has lasted long enough. -/
theorem step_sleep_returns {s : State} {start : Millis} {rest : List Event} (hb : s.busy = true)
    (ht : s.tstate = .awaitingAck) (hs : s.sleeping = some start) (he : s.env = .turn :: rest)
    (hlong : 10 ≤ (s.now - start).toNat) : step s = .next { s with env := rest, sleeping := none } := by
  have hwait := waitStep_sleeping (s := { s with env := rest }) hs
  rw [if_neg (Nat.not_lt.2 hlong)] at hwait
  rw [← hwait]
  exact (step_cons he).trans (sequencer_waiting (s := { s with env := rest }) hb ht)

/-- A silent poll before the timeout: `sleepMillis(10)` is called. -/
theorem step_silent_poll_early {s : State} {rest : List Event} (h : AtSilentPoll s) (he : s.env = .turn :: rest)
    (hearly : (s.now - s.t0).toNat < 10000) : step s = .next { s with env := rest, sleeping := some s.now } := by
  rw [step_silent_poll h he, timeoutOrSleep_eq, if_neg (Nat.not_le.2 hearly)]

/-- The time base after an advance, seen from an earlier moment. -/
theorem elapsed_advance (now t0 : Millis) {d : Nat} (h : (now - t0).toNat + d < 2 ^ 32) :
    (now + BitVec.ofNat 32 d - t0).toNat = (now - t0).toNat + d := by
  bv_omega

/-- A silent poll before the timeout, an advance that is long enough, and the delay's return: only the time has
changed. -/
theorem run_silent_round {s : State} {d : Nat} {rest : List Event} (h : AtSilentPoll s)
    (he : s.env = .turn :: .advance (BitVec.ofNat 32 d) :: .turn :: rest) (hwait : (s.now - s.t0).toNat < 10000)
    (hlong : 10 ≤ d) (hd : d < 2 ^ 32) :
    Host.Core.run core 3 s = .next { s with env := rest, now := s.now + BitVec.ofNat 32 d } := by
  have hself : (s.now - s.now).toNat = 0 := by rw [BitVec.sub_self]; rfl
  have helapsed : (s.now + BitVec.ofNat 32 d - s.now).toNat = d := by
    rw [elapsed_advance _ _ (by omega), hself, Nat.zero_add]
  have hadvance : step { s with env := .advance (BitVec.ofNat 32 d) :: .turn :: rest, sleeping := some s.now } =
      .next { s with env := .turn :: rest, sleeping := some s.now, now := s.now + BitVec.ofNat 32 d } := rfl
  have hreturn := step_sleep_returns (rest := rest)
    (s := { s with env := .turn :: rest, sleeping := some s.now, now := s.now + BitVec.ofNat 32 d })
    h.busy h.waiting rfl rfl (helapsed.symm ▸ hlong)
  rw [run_succ 2 (step_silent_poll_early h he hwait), run_succ 1 hadvance, run_succ 0 hreturn, run_zero, ← h.awake]

/-- The wait has ended in a timeout after `n` ms more of silence. -/
def timedOut (s : State) (n : Nat) : State :=
  finished { s with env := [], now := s.now + BitVec.ofNat 32 n, tstate := .failed } .sendError 1
    (if s.op = 0x31 then 0 else s.chcnt.setWidth 16) (if s.op = 0x31 then 0 else s.choff.setWidth 16) false

theorem timedOut_advanced (s : State) (d n : Nat) (es : List Event) :
    timedOut { s with env := es, now := s.now + BitVec.ofNat 32 d } n = timedOut s (d + n) := by
  simp only [timedOut, BitVec.add_assoc, BitVec.ofNat_add]

/-- The first poll at which 10000 ms have passed. -/
theorem step_timeout {s : State} (h : AtSilentPoll s) (he : s.env = [.turn]) (hlate : 10000 ≤ (s.now - s.t0).toNat) :
    step s = .next (timedOut s 0) := by
  have hfail := timeoutOrSleep_eq { s with env := [] }
  rw [if_pos hlate] at hfail
  rw [step_silent_poll h he, hfail, timedOut, BitVec.add_zero]

/-- With any part of the wait already over, the polls go on until the delays have reached 10000 ms. -/
theorem run_silence (ds : List Nat) {s : State} (h : AtSilentPoll s) (he : s.env = .turn :: silence ds)
    (hlong : ∀ d ∈ ds, 10 ≤ d) (hearly : ds ≠ [] → (s.now - s.t0).toNat + ds.dropLast.sum < 10000)
    (hlate : 10000 ≤ (s.now - s.t0).toNat + ds.sum) (hwrap : (s.now - s.t0).toNat + ds.sum < 2 ^ 32) :
    Host.Core.run core (1 + 3 * ds.length) s = .next (timedOut s ds.sum) := by
  induction ds generalizing s with
  | nil => exact (run_succ 0 (step_timeout h he hlate)).trans (run_zero _)
  | cons d ds ih =>
    obtain ⟨hd, hlong⟩ := List.forall_mem_cons.1 hlong
    have hbefore := hearly (List.cons_ne_nil d ds)
    rw [List.sum_cons] at hlate hwrap
    have helapsed := elapsed_advance s.now s.t0 (d := d) (by omega)
    have hearly' : ds ≠ [] → (s.now - s.t0).toNat + d + ds.dropLast.sum < 10000 := by
      intro hne
      rw [List.dropLast_cons_of_ne_nil hne, List.sum_cons] at hbefore
      omega
    have hround := run_silent_round h he (by omega) hd (by omega)
    rw [← Nat.add_assoc] at hlate hwrap
    rw [← helapsed] at hlate hwrap hearly'
    rw [List.length_cons, Nat.mul_succ, ← Nat.add_assoc, Nat.add_comm, run_add _ _ hround, List.sum_cons,
      ← timedOut_advanced s d ds.sum (.turn :: silence ds)]
    exact ih { h with } rfl hlong hearly' hlate hwrap

/-- Delays of at least 10 ms that stay below 10000 ms before the last: at most 1000. -/
theorem length_le_of_delays {ds : List Nat} (hlong : ∀ d ∈ ds, 10 ≤ d) (hearly : ds.dropLast.sum < 10000) :
    ds.length ≤ 1000 := by
  have hsum := List.card_nsmul_le_sum ds.dropLast 10 fun d hd => hlong d (List.mem_of_mem_dropLast hd)
  rw [List.length_dropLast, smul_eq_mul] at hsum
  omega

/-- Settles O35: the wait has just begun, so that nothing of it is over. -/
theorem silenceEndsInATimeout : Obligations.SilenceEndsInATimeout := by
  intro s ds hb ht hs hrx ht0 he hlong hearly hlate hwrap
  have hzero : (s.now - s.t0).toNat = 0 := by rw [ht0, BitVec.sub_self]; rfl
  refine ⟨length_le_of_delays hlong hearly, ?_⟩
  exact run_silence ds ⟨hb, ht, hs, hrx⟩ he hlong (fun _ => by omega) (by omega) (by omega)

end Sys2Proof.Proofs
end


section
/-! EXPORT: the staging of an envelope dive by dive, and the sending of what has been staged. -/

namespace Sys2Proof.Proofs

open Sys2Proof Sys2Proof.Machine Sys2Proof.Safety

/-! ## The commands -/

theorem exec_envopen (s : State) : exec .envopen s =
    .next (finished { s with sb := openHeader s.img, sbptr := 0 } .noError 0 7 0 false) := by
  rw [exec, execEnvopen, headerBytes_eq, orFault_ok]
  rfl

theorem exportOpened_eq (s : State) : exportOpened s =
    { s with tstate := .idle, dive := 0, imageChanged := false, count := s.img.get 0x7F5,
             sb := openHeader s.img, sbptr := 0 } := by
  rw [exportOpened, storedDives, BitVec.ofNat_toNat, BitVec.setWidth_eq]

/-- Settles O36: the header of the image, completed. -/
theorem envopenStagesTheHeader : Obligations.EnvopenStagesTheHeader := ⟨decode_encode .envopen, exec_envopen⟩

/-- Settles O37: the decoder's row of the table, then the three ends in the order of the tests. -/
theorem envcloseClosesTheEnvelope : Obligations.EnvcloseClosesTheEnvelope :=
  ⟨decode_encode .envclose, exec_envclose⟩

/-- Settles O38: the header is staged before the number of dives is tested. -/
theorem exportStagesTheHeader : Obligations.ExportStagesTheHeader := by
  intro s
  rw [← exportOpened_eq]
  exact execExport_eq s

/-! ## One dive -/

/-- A step of EXPORT's staging is the loop body for the dive in `DIVE`. -/
theorem step_staging {s : State} (hb : s.busy = true) (ht : s.tstate = .idle) (he : s.env = []) :
    step s = s.stageStep :=
  (step_nil he).trans (sequencer_staging hb ht)

theorem stageStep_found {s : State} {p : Nat × Nat} (hi : s.imageChanged = false)
    (hp : profileSegment s.img s.dive.toNat = some p) :
    s.stageStep = .next (afterDive s (diveRecord s.img s.dive.toNat)) := by
  rw [stageStep_eq s hi, hp]

theorem stageStep_notFound {s : State} (hi : s.imageChanged = false)
    (hp : profileSegment s.img s.dive.toNat = none) :
    s.stageStep =
      .next (finished { s with sb := s.sb ++ recordHead s.img s.dive.toNat } .dataError 2 0 0 false) := by
  rw [stageStep_eq s hi, hp]
  rfl

/-- Settles O39: by whether the image is stable; then by the profile, or by the three ends of the open values. -/
theorem exportStagesOneDive : Obligations.ExportStagesOneDive := by
  intro s hb ht he
  rw [step_staging hb ht he]
  refine ⟨fun hi => ?_, fun hi => ?_⟩
  · cases hp : profileSegment s.img s.dive.toNat with
    | none => exact stageStep_notFound hi hp
    | some p => exact stageStep_found hi hp
  · obtain ⟨head, samples, k, hhead, hsamples, ⟨-, hstop⟩ | ⟨-, hstaged⟩ | hfull⟩ := stageStep_changed s hi
    · exact ⟨head, samples, k, hhead, hsamples, .inl hstop⟩
    · exact ⟨head, samples, k, hhead, hsamples, .inr (.inl hstaged)⟩
    · exact ⟨head, samples, k, hhead, hsamples, .inr (.inr hfull)⟩

/-! ## The records and the envelope -/

theorem profileSegment_none {m : Memory} {n : Nat} (h : (sentinelDistances m).length ≤ n) :
    profileSegment m n = none := by
  rw [profileSegment, List.getElem?_eq_none h]
  rfl

theorem exists_segment {m : Memory} {n : Nat} (h : n < (sentinelDistances m).length) :
    ∃ p, profileSegment m n = some p :=
  ⟨_, profileSegment_of_distance (List.getElem?_eq_getElem h)⟩

theorem diveRecords_zero (m : Memory) : diveRecords m 0 = [] := rfl

theorem diveRecords_succ (m : Memory) (n : Nat) : diveRecords m (n + 1) = diveRecords m n ++ diveRecord m n := by
  rw [diveRecords, List.range_succ, List.flatMap_append, List.flatMap_singleton]
  rfl

/-- A record takes the distance on to the next sentinel, and 17 bytes. -/
theorem diveRecord_length_add {m : Memory} {n : Nat} (h : n < (sentinelDistances m).length) :
    (diveRecord m n).length + segmentEnd m n = 17 + segmentEnd m (n + 1) := by
  have hd := List.getElem?_eq_getElem h
  have hlt := segmentEnd_lt hd
  rw [diveRecord_length hd, segmentEnd_succ hd]
  omega

/-- The first `n` records take 17 bytes each and the samples as far as sentinel number `n`. -/
theorem diveRecords_length {m : Memory} {n : Nat} (h : n ≤ (sentinelDistances m).length) :
    (diveRecords m n).length = 17 * n + segmentEnd m n := by
  induction n with
  | zero => rfl
  | succ n ih =>
    have hrecord := diveRecord_length_add h
    rw [diveRecords_succ, List.length_append, ih (by omega)]
    omega

/-- The bound of 44_export.md rule R130: header, 255 records, all samples of the ring, checksum. -/
theorem envelope_length_le {m : Memory} (h : allProfilesFound m) : (envelope m).length ≤ 5878 := by
  have hrecords := diveRecords_length h
  have hend := segmentEnd_le m h
  have hcount := storedDives_lt m
  rw [envelope, closed_length _ (by simp [openHeader_length]; omega), List.length_append, openHeader_length, hrecords]
  omega

theorem envelope_length_pos (m : Memory) : 0 < (envelope m).length := by
  simp [envelope, closed]

/-! ## The staging of an image -/

/-- EXPORT has been accepted from `s` and the records of dives 0 to `n - 1` are staged. -/
def exportStaging (s : State) (n : Nat) : State :=
  { s with
    env := [], cmd := 0x0042, op := 0x42, busy := true, done := false, err := .noError, flag := false,
    tstate := .idle, dive := BitVec.ofNat 8 n, imageChanged := false, count := s.img.get 0x7F5,
    sb := openHeader s.img ++ diveRecords s.img n, sbptr := 0 }

theorem exportStaging_dive {s : State} {n : Nat} (h : n < storedDives s.img) :
    (exportStaging s n).dive.toNat = n :=
  Nat.mod_eq_of_lt (h.trans (storedDives_lt s.img))

theorem exportStaging_zero (s : State) :
    exportOpened (({ s with env := [] } : State).accept 0x0042) = exportStaging s 0 := by
  rw [exportOpened_eq, exportStaging, diveRecords_zero, List.append_nil]
  rfl

theorem step_export {s : State} (hb : s.busy = false) (he : s.env = [.hostWrite .cmd 0x0042])
    (hne : storedDives s.img ≠ 0) : step s = .next (exportStaging s 0) := by
  rw [← exportStaging_zero]
  exact (step_command hb he (decode_encode .exportRun)).trans ((execExport_eq _).trans (if_neg hne))

theorem step_exportStaging {s : State} {n : Nat} (hn : n < storedDives s.img)
    (hp : n < (sentinelDistances s.img).length) :
    step (exportStaging s n) = .next (afterDive (exportStaging s n) (diveRecord s.img n)) := by
  have hdive := exportStaging_dive hn
  obtain ⟨p, hseg⟩ := exists_segment hp
  rw [← hdive] at hseg
  have hstep := stageStep_found (s := exportStaging s n) rfl hseg
  rw [hdive] at hstep
  exact (step_staging rfl rfl rfl).trans hstep

theorem step_exportStaging_next {s : State} {n : Nat} (hn : n + 1 < storedDives s.img)
    (hp : n < (sentinelDistances s.img).length) :
    step (exportStaging s n) = .next (exportStaging s (n + 1)) := by
  have hmore : (exportStaging s n).dive.toNat + 1 < (exportStaging s n).count.toNat := by
    rw [exportStaging_dive (by omega)]
    exact hn
  rw [step_exportStaging (by omega) hp, afterDive, if_pos hmore]
  simp only [exportStaging, List.append_assoc, ← diveRecords_succ, BitVec.ofNat_add]
  rfl

/-- The records of all dives but one more, one a step. -/
theorem run_exportStaging {s : State} (n : Nat) (hn : n < storedDives s.img)
    (hp : n ≤ (sentinelDistances s.img).length) :
    Host.Core.run core n (exportStaging s 0) = .next (exportStaging s n) := by
  induction n with
  | zero => exact run_zero _
  | succ n ih =>
    rw [run_add n 1 (ih (by omega) (by omega)), run_succ 0 (step_exportStaging_next hn hp), run_zero]

/-- From the command to the dive number `n`. -/
theorem run_export {s : State} (hb : s.busy = false) (he : s.env = [.hostWrite .cmd 0x0042]) (n : Nat)
    (hn : n < storedDives s.img) (hp : n ≤ (sentinelDistances s.img).length) :
    Host.Core.run core (1 + n) s = .next (exportStaging s n) := by
  rw [Nat.add_comm, run_succ n (step_export hb he (by omega)), run_exportStaging n hn hp]

/-- The envelope is closed and the transmission of its first chunk is about to begin. -/
def envelopeStaged (s : State) : State :=
  State.startSending { exportStaging s (storedDives s.img - 1) with
    sb := envelope s.img, retry := 0, choff := 0, chcnt := 0, fb := bulkPacket (chunkOf (envelope s.img) 0) }

theorem step_exportStaging_last {s : State} {n : Nat} (hn : n + 1 = storedDives s.img)
    (hp : n < (sentinelDistances s.img).length) : step (exportStaging s n) = .next (envelopeStaged s) := by
  have hlast : ¬ (exportStaging s n).dive.toNat + 1 < (exportStaging s n).count.toNat := by
    rw [exportStaging_dive (by omega)]
    exact hn.ge.not_gt
  have hsb : closed ((exportStaging s n).sb ++ diveRecord s.img n) = envelope s.img := by
    rw [exportStaging, List.append_assoc, ← diveRecords_succ, hn]
    rfl
  obtain rfl : n = storedDives s.img - 1 := by omega
  rw [step_exportStaging (by omega) hp, afterDive, if_neg hlast, hsb]
  rfl

theorem run_envelopeStaged {s : State} (hb : s.busy = false) (he : s.env = [.hostWrite .cmd 0x0042])
    (hne : storedDives s.img ≠ 0) (hall : allProfilesFound s.img) :
    Host.Core.run core (1 + storedDives s.img) s = .next (envelopeStaged s) := by
  unfold allProfilesFound at hall
  obtain ⟨n, hn⟩ := Nat.exists_eq_succ_of_ne_zero hne
  rw [hn, Nat.succ_eq_add_one, ← Nat.add_assoc, run_add (1 + n) 1 (run_export hb he n (by omega) (by omega)),
    run_succ 0 (step_exportStaging_last hn.symm (by omega)), run_zero]

/-- Settles O40: one step for the command and one for each dive. -/
theorem exportStagesTheEnvelope : Obligations.ExportStagesTheEnvelope :=
  fun _ hb he hne hall => run_envelopeStaged hb he hne hall

/-- Settles O42: the records of the dives with a profile, then the dive without one. -/
theorem exportDataErrorSendsNothing : Obligations.ExportDataErrorSendsNothing := by
  intro s n hb he hn hlt
  have hdive := exportStaging_dive hlt
  have hstop := stageStep_notFound (s := exportStaging s n) rfl (profileSegment_none (by rw [hdive]; exact hn.ge))
  rw [hdive] at hstop
  have hstep := (step_staging (s := exportStaging s n) rfl rfl rfl).trans hstop
  rw [show 2 + n = 1 + n + 1 by omega, run_add (1 + n) 1 (run_export hb he n hlt hn.le), run_succ 0 hstep, run_zero]
  rfl

/-- A bulk transfer from its first chunk on, every chunk acknowledged: the whole buffer goes out. -/
theorem run_bulk {s : State} {rest : List Byte} (h : Transmitting s) (hpos : s.txpos = 0) (hop : s.op ≠ 0x31)
    (hfirst : s.chcnt = 0) (hchunk : HoldsChunk s) (hcap : s.sb.length ≤ 6144)
    (hrx : s.rx = List.replicate (chunkCount s.sb) 0x06 ++ rest) :
    Host.Core.run core (s.sb.length + 4 * chunkCount s.sb) s = .next (delivered s (bulkStream s.sb) rest) := by
  have hzero : s.chcnt.toNat = 0 := congrArg BitVec.toNat hfirst
  obtain ⟨m, hm⟩ : ∃ m, chunkCount s.sb = m + 1 := by
    obtain ⟨hlt, -, -⟩ := hchunk
    exact Nat.exists_eq_add_of_le' (by unfold chunkCount; omega)
  have hchunks := run_chunks m h hpos hop hchunk hcap (by omega) (hm ▸ hrx)
  rw [hzero, ← hm, ← List.range_eq_range'] at hchunks
  exact hchunks

/-- Settles O43: the staging, then the transfer of the envelope as that of any buffer. -/
theorem exportDeliversTheEnvelope : Obligations.ExportDeliversTheEnvelope := by
  intro s rest hb he hready hne hall hrx
  have hcap : (envelope s.img).length ≤ 6144 := (envelope_length_le hall).trans (by decide)
  have hop : (0x42 : BitVec 8) ≠ 0x31 := by decide
  rw [Nat.add_assoc, run_add _ _ (run_envelopeStaged hb he hne hall)]
  exact run_bulk (s := envelopeStaged s) ⟨rfl, rfl, hready, rfl⟩ rfl hop rfl
    ⟨envelope_length_pos s.img, rfl, rfl⟩ hcap hrx

end Sys2Proof.Proofs
end


section
/-! The size bound of EXPORT (44_export.md rule R130): an invariant of the machine from the command's step on. -/

namespace Sys2Proof.Proofs

open Sys2Proof Sys2Proof.Machine Sys2Proof.Safety

/-! ## Runs -/

theorem run_succ_next {k : Nat} {s t : State} (h : Host.Core.run core (k + 1) s = .next t) :
    ∃ u, step s = .next u ∧ Host.Core.run core k u = .next t := by
  cases hs : step s with
  | next u => exact ⟨u, rfl, (run_succ k hs).symm.trans h⟩
  | fault f => nomatch (run_fault k hs).symm.trans h
  | refused r => nomatch (run_refused k hs).symm.trans h

/-- What every step keeps, every state on a run has. -/
theorem run_keeps {P : State → Prop} (hstep : ∀ s t, P s → step s = .next t → P t) (k : Nat) {s t : State}
    (h : P s) (hrun : Host.Core.run core k s = .next t) : P t := by
  induction k generalizing s with
  | zero =>
    cases hrun
    exact h
  | succ k ih =>
    obtain ⟨u, hs, hrest⟩ := run_succ_next hrun
    exact ih (hstep s u h hs) hrest

/-! ## A transfer stages nothing -/

/-- From `s` to `t` nothing has been staged and the staging has not begun. -/
structure KeepsStaged (s t : State) : Prop where
  sb : t.sb = s.sb
  env : t.env = s.env
  tstate : t.tstate ≠ .idle

theorem keepsStaged_nextChunk (s : State) : KeepsStaged s s.nextChunk := by
  by_cases h : s.choff.toNat < s.sb.length
  · rw [nextChunk_more h]
    exact ⟨rfl, rfl, nofun⟩
  · rw [nextChunk_done h]
    exact ⟨rfl, rfl, nofun⟩

theorem keepsStaged_failTransfer (s : State) (sub : BitVec 4) : KeepsStaged s (s.failTransfer sub) := by
  rw [failTransfer_eq]
  exact ⟨rfl, rfl, nofun⟩

theorem keepsStaged_onAck (s : State) : KeepsStaged s s.onAck := by
  by_cases hop : s.op = 0x31
  · rw [onAck_packet hop]
    exact ⟨rfl, rfl, nofun⟩
  · rw [onAck_bulk hop]
    exact { keepsStaged_nextChunk _ with }

theorem keepsStaged_onNak (s : State) : KeepsStaged s s.onNak := by
  by_cases h : (s.retry + 1).toNat = 10
  · rw [onNak_last h]
    exact { keepsStaged_failTransfer _ 2 with }
  · rw [onNak_again h]
    exact ⟨rfl, rfl, nofun⟩

theorem keepsStaged_timeoutOrSleep {s : State} (ht : s.tstate ≠ .idle) : KeepsStaged s s.timeoutOrSleep := by
  rw [timeoutOrSleep_eq]
  split
  · exact ⟨rfl, rfl, nofun⟩
  · exact ⟨rfl, rfl, ht⟩

theorem keepsStaged_pollStep {s : State} (ht : s.tstate ≠ .idle) : KeepsStaged s s.pollStep := by
  unfold State.pollStep
  split
  · exact keepsStaged_timeoutOrSleep ht
  · next b rest _ =>
    dsimp only
    split
    · exact { keepsStaged_onAck { s with rx := rest } with }
    · exact { keepsStaged_timeoutOrSleep (s := { s with rx := rest }) ht with }
    · exact { keepsStaged_onNak { s with rx := rest } with }

theorem keepsStaged_waitStep {s : State} (ht : s.tstate ≠ .idle) : KeepsStaged s s.waitStep := by
  cases hs : s.sleeping with
  | none =>
    rw [waitStep_poll hs]
    exact keepsStaged_pollStep ht
  | some start =>
    rw [waitStep_sleeping hs]
    split <;> exact ⟨rfl, rfl, ht⟩

theorem keepsStaged_emitStep {s : State} (ht : s.tstate ≠ .idle) : KeepsStaged s s.emitStep := by
  unfold State.emitStep
  split
  · exact ⟨rfl, rfl, nofun⟩
  · split <;> exact ⟨rfl, rfl, ht⟩

/-! ## The invariant -/

/-- No dive is being staged, and none will be; what has been staged is within the bound. -/
structure StagingOver (s : State) : Prop where
  silent : s.env = []
  bound : s.sb.length ≤ 5878
  ended : s.busy = true → s.tstate ≠ .idle

/-- Dive number `n` is the next to be staged, of an image that has not changed. -/
structure StagingDive (s : State) (n : Nat) : Prop where
  silent : s.env = []
  busy : s.busy = true
  idle : s.tstate = .idle
  stable : s.imageChanged = false
  dive : s.dive.toNat = n
  more : n < s.count.toNat
  found : n ≤ (sentinelDistances s.img).length
  staged : s.sb.length = 7 + 17 * n + segmentEnd s.img n

/-- An EXPORT is staging or has staged no more than the bound. -/
def WithinBound (s : State) : Prop := StagingOver s ∨ ∃ n, StagingDive s n

theorem StagingOver.of_keepsStaged {s t : State} (h : StagingOver s) (hk : KeepsStaged s t) : StagingOver t :=
  ⟨hk.env.trans h.silent, hk.sb ▸ h.bound, fun _ => hk.tstate⟩

theorem stagingOver_step {s t : State} (h : StagingOver s) (hs : step s = .next t) : StagingOver t := by
  rw [step_nil h.silent] at hs
  cases hb : s.busy with
  | false =>
    rw [sequencer_idle hb] at hs
    cases hs
    exact h
  | true =>
    have hne := h.ended hb
    cases ht : s.tstate with
    | idle => exact absurd ht hne
    | sending =>
      rw [sequencer_sending hb ht] at hs
      cases hs
      exact h.of_keepsStaged (keepsStaged_emitStep hne)
    | awaitingAck =>
      rw [sequencer_waiting hb ht] at hs
      cases hs
      exact h.of_keepsStaged (keepsStaged_waitStep hne)
    | done | failed =>
      simp only [State.sequencerStep, hb, ht, if_true] at hs
      cases hs
      exact h

/-- The number of bytes staged before a dive leaves room for its head, or for its record and the checksum. -/
theorem StagingDive.room {s : State} {n : Nat} (h : StagingDive s n) :
    s.sb.length + 17 ≤ 5878 ∧
      (n < (sentinelDistances s.img).length → s.sb.length + (diveRecord s.img n).length + 1 ≤ 5878) := by
  have hcount := s.count.isLt
  have hmore := h.more
  have hend := segmentEnd_le s.img h.found
  rw [h.staged]
  refine ⟨by omega, fun hn => ?_⟩
  have hrecord := diveRecord_length_add hn
  have hend' : segmentEnd s.img (n + 1) ≤ 0x5FF := segmentEnd_le s.img hn
  omega

/-- A record is staged: the next dive, or the end of the staging. -/
theorem withinBound_afterDive {s : State} {n : Nat} (h : StagingDive s n)
    (hn : n < (sentinelDistances s.img).length) : WithinBound (afterDive s (diveRecord s.img n)) := by
  have hrecord := diveRecord_length_add hn
  have hstaged := h.staged
  obtain ⟨-, hroom⟩ := h.room
  unfold afterDive
  split
  · next hmore =>
    have hsucc := dive_succ hmore
    rw [h.dive] at hmore hsucc
    refine .inr ⟨n + 1, { h with dive := hsucc, more := hmore, found := hn, staged := ?_ }⟩
    show (s.sb ++ diveRecord s.img n).length = 7 + 17 * (n + 1) + segmentEnd s.img (n + 1)
    rw [List.length_append]
    omega
  · refine .inl ⟨h.silent, ?_, nofun⟩
    rw [closed_length _ (by rw [List.length_append]; omega), List.length_append]
    exact hroom hn

theorem withinBound_diveStep {s t : State} {n : Nat} (h : StagingDive s n) (hs : step s = .next t) : WithinBound t := by
  rw [step_staging h.busy h.idle h.silent] at hs
  rcases Nat.lt_or_ge n (sentinelDistances s.img).length with hn | hn
  · obtain ⟨p, hp⟩ := exists_segment hn
    rw [stageStep_found h.stable (h.dive ▸ hp), h.dive] at hs
    cases hs
    exact withinBound_afterDive h hn
  · obtain ⟨hroom, -⟩ := h.room
    rw [stageStep_notFound h.stable (profileSegment_none (h.dive ▸ hn))] at hs
    cases hs
    refine .inl ⟨h.silent, ?_, nofun⟩
    rw [finished, List.length_append, recordHead_length]
    omega

theorem withinBound_step (s t : State) (h : WithinBound s) (hs : step s = .next t) : WithinBound t := by
  rcases h with hover | ⟨n, hdive⟩
  · exact .inl (stagingOver_step hover hs)
  · exact withinBound_diveStep hdive hs

theorem withinBound_length {s : State} (h : WithinBound s) : s.sb.length ≤ 5878 := by
  rcases h with hover | ⟨n, hdive⟩
  · exact hover.bound
  · obtain ⟨hroom, -⟩ := hdive.room
    omega

/-- The command's own step, with no dive stored or with some. -/
theorem withinBound_export {s t : State} (hb : s.busy = false) (he : s.env = [.hostWrite .cmd 0x0042])
    (hs : step s = .next t) : WithinBound t := by
  by_cases hne : storedDives s.img = 0
  · have hnull : step s =
        .next ((exportOpened (({ s with env := [] } : State).accept 0x0042)).reject .diveCountNull 0) :=
      (step_command hb he (decode_encode .exportRun)).trans ((execExport_eq _).trans (if_pos hne))
    cases hnull.symm.trans hs
    exact .inl ⟨rfl, show 7 ≤ 5878 by decide, nofun⟩
  · cases (step_export hb he hne).symm.trans hs
    exact .inr ⟨0, rfl, rfl, rfl, rfl, rfl, Nat.pos_of_ne_zero hne, Nat.zero_le _, rfl⟩

/-- Settles O41: the bound holds after the command's step, and every further step keeps it. -/
theorem exportNeverStagesMoreThanTheBound : Obligations.ExportNeverStagesMoreThanTheBound := by
  intro s t k hb he hk hrun
  obtain ⟨k, rfl⟩ := Nat.exists_eq_add_of_le' hk
  obtain ⟨u, hs, hrest⟩ := run_succ_next hrun
  exact withinBound_length (run_keeps withinBound_step k (withinBound_export hb he hs) hrest)

end Sys2Proof.Proofs
end


section
/-! The host's own way to the envelope (44_export.md rule R129): what its lines come to one after the other. -/

namespace Sys2Proof.Proofs

open Sys2Proof Sys2Proof.Machine Sys2Proof.Safety

/-! ## A command line -/

/-- The operands that a line gives are in their registers, the other registers are as they were. -/
def withOperands (t : State) (a0 a1 : Option Half) : State :=
  { t with arg0 := a0.getD t.arg0, arg1 := a1.getD t.arg1 }

theorem withOperands_img (t : State) (a0 a1 : Option Half) : (withOperands t a0 a1).img = t.img := rfl

theorem withOperands_arg0 (t : State) (v : Half) (a1 : Option Half) : (withOperands t (some v) a1).arg0 = v := rfl

theorem withOperands_arg1 (t : State) (a0 : Option Half) (v : Half) : (withOperands t a0 (some v)).arg1 = v := rfl

/-- The part of a line that gives an operand. -/
def operandLine (r : HostReg) (a : Option Half) : List Event := (a.map fun v => Event.hostWrite r v).toList

theorem commandLine_eq (i : Instr) (a0 a1 : Option Half) (rest : List Event) :
    commandLine i a0 a1 ++ rest =
      operandLine .arg0 a0 ++ (operandLine .arg1 a1 ++ .hostWrite .cmd (encode i) :: rest) := by
  rw [commandLine, List.append_assoc, List.append_assoc]
  rfl

/-- The operand is written, if there is one. -/
def writeOperand (t : State) (r : HostReg) (a : Option Half) : State := a.elim t (t.writeReg r)

theorem writeOperand_arg0 (t : State) (a : Option Half) : writeOperand t .arg0 a = withOperands t a none := by
  cases a <;> rfl

theorem writeOperand_arg1 (t : State) (a : Option Half) : writeOperand t .arg1 a = withOperands t none a := by
  cases a <;> rfl

theorem run_operandLine {r : HostReg} (hr : r ≠ .cmd) {a : Option Half} {t : State} {rest : List Event}
    (hb : t.busy = false) (he : t.env = operandLine r a ++ rest) :
    Host.Core.run core (operandLine r a).length t = .next (writeOperand { t with env := rest } r a) := by
  cases a with
  | none =>
    obtain rfl : t.env = rest := he
    exact run_zero t
  | some v => exact (run_succ 0 (step_hostWrite_idle hb he hr)).trans (run_zero _)

/-- A line runs its command on the operands, in the state that accepts it. -/
theorem run_commandLine {i : Instr} {a0 a1 : Option Half} {t u : State} {rest : List Event} (hb : t.busy = false)
    (he : t.env = commandLine i a0 a1 ++ rest)
    (h : exec i (withOperands (State.accept { t with env := rest } (encode i)) a0 a1) = .next u) :
    Host.Core.run core (commandLine i a0 a1).length t = .next u := by
  rw [commandLine_eq] at he
  have h0 := run_operandLine (by decide) hb he
  rw [writeOperand_arg0] at h0
  have h1 := run_operandLine (r := .arg1) (a := a1) (rest := .hostWrite .cmd (encode i) :: rest) (by decide)
    (t := withOperands { t with env := operandLine .arg1 a1 ++ .hostWrite .cmd (encode i) :: rest } a0 none) hb rfl
  rw [writeOperand_arg1] at h1
  have h2 := step_command (i := i) (rest := rest)
    (s := withOperands (withOperands { t with env := .hostWrite .cmd (encode i) :: rest } a0 none) none a1)
    hb rfl (decode_encode i)
  have h01 := (run_add _ _ h0).trans h1
  rw [commandLine, List.length_append, List.length_append]
  exact (run_add _ 1 h01).trans ((run_succ 0 (h2.trans h)).trans (run_zero u))

/-! ## Programs that stage bytes -/

/-- The host's program stands at `p`, `b` is staged, the last command ended without error; the image, `TX`, `RX`, `FB` and
`TSTATE` are those of `s`. -/
structure Hosting (s : State) (b : List Byte) (p : List Event) (t : State) : Prop where
  idle : t.busy = false
  env : t.env = p
  staged : t.sb = b
  noError : t.err = .noError
  img : t.img = s.img
  tx : t.tx = s.tx
  rx : t.rx = s.rx
  fb : t.fb = s.fb
  tstate : t.tstate = s.tstate

/-- The program `p` appends `bs` to the `b` that is staged, one action a step, whatever program stands behind it. -/
def Appends (s : State) (p : List Event) (b bs : List Byte) : Prop :=
  ∀ (t : State) (rest : List Event), Hosting s b (p ++ rest) t →
    ∃ u, Host.Core.run core p.length t = .next u ∧ Hosting s (b ++ bs) rest u

theorem appends_nil (s : State) (b : List Byte) : Appends s [] b [] := fun t _ h =>
  ⟨t, run_zero t, { h with staged := h.staged.trans (List.append_nil b).symm }⟩

/-- One program after another. -/
theorem Appends.trans {s : State} {p q : List Event} {b bs cs : List Byte} (hp : Appends s p b bs)
    (hq : Appends s q (b ++ bs) cs) : Appends s (p ++ q) b (bs ++ cs) := by
  intro t rest h
  rw [List.append_assoc] at h
  obtain ⟨u, hrun, hu⟩ := hp t _ h
  obtain ⟨v, hrun', hv⟩ := hq u _ hu
  rw [List.append_assoc] at hv
  exact ⟨v, by rw [List.length_append, run_add _ _ hrun, hrun'], hv⟩

/-- A command that appends `bs` in every state with the image of `s`, these operands and `b` staged. -/
theorem appends_command {s : State} {i : Instr} {a0 a1 : Option Half} {b bs : List Byte}
    (h : ∀ t : State, t.img = s.img → t.sb = b → ∃ r0 r1 f, exec i (withOperands t a0 a1) =
      .next (finished { withOperands t a0 a1 with sb := b ++ bs } .noError 0 r0 r1 f)) :
    Appends s (commandLine i a0 a1) b bs := by
  intro t rest ht
  obtain ⟨r0, r1, f, hexec⟩ := h (State.accept { t with env := rest } (encode i)) ht.img ht.staged
  exact ⟨_, run_commandLine ht.idle ht.env hexec,
    { ht with idle := rfl, env := rfl, staged := rfl, noError := rfl }⟩

/-- A command that only reports: it stages nothing. -/
theorem appends_query {s : State} {i : Instr} {a0 : Option Half} {b : List Byte}
    (h : ∀ t : State, t.img = s.img → ∃ r0 r1 f, exec i (withOperands t a0 none) =
      .next (finished (withOperands t a0 none) .noError 0 r0 r1 f)) : Appends s (commandLine i a0 none) b [] := by
  refine appends_command fun t himg hsb => ?_
  rw [List.append_nil, ← hsb]
  exact h t himg

/-- A program that stages nothing and then another one. -/
theorem Appends.after_query {s : State} {p q : List Event} {b bs : List Byte} (hp : Appends s p b [])
    (hq : Appends s q b bs) : Appends s (p ++ q) b bs :=
  hp.trans ((List.append_nil b).symm ▸ hq)

/-- A program and then one that stages nothing. -/
theorem Appends.then_query {s : State} {p q : List Event} {b bs : List Byte} (hp : Appends s p b bs)
    (hq : Appends s q (b ++ bs) []) : Appends s (p ++ q) b bs :=
  List.append_nil bs ▸ hp.trans hq

/-- A command of the append discipline, with room for its bytes (41_serializer.md rule R94). -/
theorem appends_whole {s : State} {i : Instr} {a0 a1 : Option Half} {b bs : List Byte}
    (hroom : b.length + bs.length ≤ 6144)
    (h : ∀ t : State, t.img = s.img → exec i (withOperands t a0 a1) = appendWhole (withOperands t a0 a1) bs) :
    Appends s (commandLine i a0 a1) b bs := by
  refine appends_command fun t himg hsb => ⟨BitVec.ofNat 16 bs.length, 0, false, ?_⟩
  subst hsb
  exact (h t himg).trans (if_neg (Nat.not_lt.2 hroom))

theorem writeReg_sbdata {t : State} (h : t.fits 1 = true) (c : Byte) :
    t.writeReg .sbdata (zext16 c) = { t with sb := t.sb ++ [c] } := by
  have hbyte : (zext16 c).extractLsb' 0 8 = c := by
    rw [zext16_byte]
    exact BitVec.extractLsb'_append_eq_right
  rw [State.writeReg, State.writeSbdata, hbyte]
  exact if_pos h

theorem appends_putByte (s : State) (c : Byte) {b : List Byte} (hroom : b.length + 1 ≤ 6144) :
    Appends s (putLine [c]) b [c] := by
  intro t rest ht
  have hstep := step_hostWrite_idle (rest := rest) ht.idle ht.env (by decide)
  rw [writeReg_sbdata (t := { t with env := rest }) ((fits_iff t 1).2 (ht.staged ▸ hroom))] at hstep
  exact ⟨_, (run_succ 0 hstep).trans (run_zero _), { ht with env := rfl, staged := by rw [ht.staged] }⟩

/-- `PUT`, with room for the bytes. -/
theorem appends_putLine (s : State) (bs : List Byte) {b : List Byte} (hroom : b.length + bs.length ≤ 6144) :
    Appends s (putLine bs) b bs := by
  induction bs generalizing b with
  | nil => exact appends_nil s b
  | cons c bs ih =>
    rw [List.length_cons] at hroom
    have hrest : (b ++ [c]).length + bs.length ≤ 6144 := by
      rw [List.length_append, List.length_singleton]
      omega
    exact (appends_putByte s c (by omega)).trans (ih hrest)

/-! ## The lines for one dive (44_export.md rule R129) -/

theorem appends_wrident (s : State) {b : List Byte} (h : b.length + 4 ≤ 6144) :
    Appends s (commandLine .wrident none none) b (identityBytes s.img) :=
  appends_whole h fun t himg => by
    rw [exec_wrident, withOperands_img, himg]

theorem diveIndex_withOperands (t : State) {n : Nat} (h : n ≤ 255) (a1 : Option Half) :
    (withOperands t (some (BitVec.ofNat 16 n)) a1).diveIndex = some n :=
  (diveIndex_congr rfl).trans (diveIndex_ofNat t h)

theorem appends_logidx (s : State) {n : Nat} (h : n ≤ 255) (b : List Byte) :
    Appends s (commandLine .logidx (some (BitVec.ofNat 16 n)) none) b [] :=
  appends_query fun t _ => ⟨_, _, _, exec_logidx_dive (diveIndex_withOperands t h none)⟩

theorem appends_logvalid (s : State) (a0 : Option Half) (b : List Byte) :
    Appends s (commandLine .logvalid a0 none) b [] :=
  appends_query fun _ _ => ⟨_, _, _, exec_logvalid _⟩

theorem appends_profvalid (s : State) (a0 : Option Half) (b : List Byte) :
    Appends s (commandLine .profvalid a0 none) b [] :=
  appends_query fun _ _ => ⟨_, _, _, exec_profvalid _⟩

theorem appends_wrlog (s : State) (n : Nat) {b : List Byte} (h : b.length + 12 ≤ 6144) :
    Appends s (commandLine .wrlog (some (BitVec.ofNat 16 (0x600 + 12 * logbookSlot s.img n))) none) b
      (entryBytes s.img (0x600 + 12 * logbookSlot s.img n)) := by
  have hslot := logbookSlot_le s.img n
  have harg : (BitVec.ofNat 16 (0x600 + 12 * logbookSlot s.img n)).toNat = 0x600 + 12 * logbookSlot s.img n :=
    Nat.mod_eq_of_lt (by omega)
  refine appends_whole h fun t himg => ?_
  rw [exec_wrlog, withOperands_img, withOperands_arg0, harg, himg]

theorem appends_proffind {s : State} {n start len : Nat} (h : n ≤ 255)
    (hp : profileSegment s.img n = some (start, len)) (b : List Byte) :
    Appends s (commandLine .proffind (some (BitVec.ofNat 16 n)) none) b [] :=
  appends_query fun t himg =>
    ⟨_, _, _, exec_proffind_found (diveIndex_withOperands t h none) (himg.symm ▸ hp)⟩

theorem appends_wrprof (s : State) {start count : Nat} (hstart : start < 0x600) (hcount : count < 0x600) {b : List Byte}
    (h : b.length + count ≤ 6144) :
    Appends s (commandLine .wrprof (some (BitVec.ofNat 16 start)) (some (BitVec.ofNat 16 count))) b
      (sampleBytes s.img start count) := by
  have harg0 := toNat_ofNat_half hstart
  have harg1 := toNat_ofNat_half hcount
  refine appends_whole (by rwa [sampleBytes_length]) fun t himg => ?_
  rw [exec_wrprof_inside (harg0.trans_lt hstart), withOperands_img, withOperands_arg0, withOperands_arg1, harg0, harg1,
    himg]

/-- The lines for a dive with a profile stage its record. -/
theorem appends_diveProgram {s : State} {n : Nat} (hn : n ≤ 255) (hfound : n < (sentinelDistances s.img).length)
    {b : List Byte} (hroom : b.length + (diveRecord s.img n).length ≤ 6144) :
    Appends s (diveProgram s.img n) b (diveRecord s.img n) := by
  obtain ⟨⟨start, len⟩, hp⟩ := exists_segment hfound
  obtain ⟨hstart, -, hlen, -⟩ := segment_bounds hp
  have hrecord : diveRecord s.img n = identityBytes s.img ++ entryBytes s.img (0x600 + 12 * logbookSlot s.img n) ++
      littleEndian (len - 1) ++ sampleBytes s.img start (len - 1) := by
    rw [diveRecord, hp]
    rfl
  rw [hrecord] at hroom ⊢
  simp only [List.length_append, identityBytes_length, entryBytes_length, littleEndian_length,
    sampleBytes_length] at hroom
  have hident := (appends_wrident s (b := b) (by omega)).then_query (appends_logidx s hn _)
    |>.then_query (appends_logvalid s (some (BitVec.ofNat 16 (0x600 + 12 * logbookSlot s.img n))) _)
  have hhead := hident.trans (appends_wrlog s n (by rw [List.length_append, identityBytes_length]; omega))
    |>.then_query (appends_proffind hn hp _) |>.then_query (appends_profvalid s (some (BitVec.ofNat 16 start)) _)
  have hcount := hhead.trans (appends_putLine s (littleEndian (len - 1)) (by
    simp only [List.length_append, identityBytes_length, entryBytes_length, littleEndian_length]
    omega))
  have hsamples := hcount.trans (appends_wrprof s hstart (count := len - 1) (by omega) (by
    simp only [List.length_append, identityBytes_length, entryBytes_length, littleEndian_length]
    omega))
  rw [diveProgram, hp]
  simpa only [List.append_assoc] using hsamples

/-- The lines for the first `n` dives, after the header. -/
theorem appends_divePrograms {s : State} (n : Nat) (hn : n ≤ 255) (hfound : n ≤ (sentinelDistances s.img).length) :
    Appends s ((List.range n).flatMap (diveProgram s.img)) (openHeader s.img) (diveRecords s.img n) := by
  induction n with
  | zero => exact appends_nil s _
  | succ n ih =>
    have hlen := diveRecords_length hfound
    have hend := segmentEnd_le s.img hfound
    rw [diveRecords_succ, List.length_append] at hlen
    have hroom : (openHeader s.img ++ diveRecords s.img n).length + (diveRecord s.img n).length ≤ 6144 := by
      rw [List.length_append, openHeader_length]
      omega
    rw [List.range_succ, List.flatMap_append, List.flatMap_singleton, diveRecords_succ]
    exact (ih (by omega) (by omega)).trans (appends_diveProgram (by omega) hfound hroom)

/-! ## The whole program -/

theorem run_envopen {s : State} {rest : List Event} (hb : s.busy = false)
    (he : s.env = commandLine .envopen none none ++ rest) :
    ∃ u, Host.Core.run core (commandLine .envopen none none).length s = .next u ∧
      Hosting s (openHeader s.img) rest u :=
  ⟨_, run_commandLine hb he (exec_envopen _), rfl, rfl, rfl, rfl, rfl, rfl, rfl, rfl, rfl⟩

theorem exec_envclose_room {s : State} (htwo : 2 ≤ s.sb.length) (hroom : s.sb.length + 1 ≤ 6144) :
    exec .envclose s =
      .next (finished { s with sb := closed s.sb } .noError 0 (BitVec.ofNat 16 (s.sb.length - 2))
        ((0 : Byte) ++ xorAll (littleEndian (s.sb.length - 2) ++ s.sb.drop 2)) false) := by
  rw [exec_envclose, if_neg (Nat.not_lt.2 htwo), if_neg (Nat.not_lt.2 hroom)]

theorem run_envclose {s t : State} {b : List Byte} {rest : List Event}
    (ht : Hosting s b (commandLine .envclose none none ++ rest) t) (htwo : 2 ≤ b.length)
    (hroom : b.length + 1 ≤ 6144) :
    ∃ u, Host.Core.run core (commandLine .envclose none none).length t = .next u ∧ Hosting s (closed b) rest u := by
  rw [← ht.staged] at htwo hroom ⊢
  have hexec := exec_envclose_room
    (s := withOperands (State.accept { t with env := rest } (encode .envclose)) none none) htwo hroom
  exact ⟨_, run_commandLine ht.idle ht.env hexec,
    { ht with idle := rfl, env := rfl, staged := rfl, noError := rfl }⟩

theorem appends_stocnt (s : State) (b : List Byte) : Appends s (commandLine .stocnt none none) b [] :=
  appends_query fun _ _ => ⟨_, _, _, exec_stocnt _⟩

/-- Settles O44: the header, then line by line the records, then the closing of what is staged. -/
theorem stepByStepExportStagesTheSameEnvelope : Obligations.StepByStepExportStagesTheSameEnvelope := by
  intro s hb he hne hall
  have hcount := storedDives_lt s.img
  have hlen := envelope_length_le hall
  have hstaged : 2 ≤ (openHeader s.img ++ diveRecords s.img (storedDives s.img)).length := by
    rw [List.length_append, openHeader_length]
    omega
  rw [envelope, closed_length _ hstaged] at hlen
  have hbody := (appends_stocnt s _).after_query (appends_divePrograms (storedDives s.img) (by omega) hall)
  have hprogram : exportProgram s.img = commandLine .envopen none none ++
      (commandLine .stocnt none none ++ (List.range (storedDives s.img)).flatMap (diveProgram s.img) ++
        commandLine .envclose none none) := by
    simp only [exportProgram, List.append_assoc]
  rw [hprogram] at he ⊢
  obtain ⟨u, hopen, hu⟩ := run_envopen hb he
  obtain ⟨v, hrecords, hv⟩ := hbody u _ hu
  obtain ⟨w, hclose, hw⟩ := run_envclose (rest := []) (by rwa [List.append_nil]) hstaged (hlen.trans (by decide))
  refine ⟨w, ?_, hw.staged, hw.noError, hw.idle, hw.env, hw.tx, hw.rx, hw.fb, hw.tstate, hw.img⟩
  rw [List.length_append, run_add _ _ hopen, List.length_append, run_add _ _ hrecords, hclose]

end Sys2Proof.Proofs
end


section
/-! Errors and completion: how a command's step can end, and that every step has an end (60_exceptions.md). -/

namespace Sys2Proof.Proofs

open Sys2Proof Sys2Proof.Machine Sys2Proof.Safety

/-! ## How a command's step ends (60_exceptions.md rules R136 to R138) -/

/-- What the step of an accepted command can come to: it completes normally, it is refused whole with an error of its
own, EXPORT finds no dive after it has staged the header, or the command goes on. -/
inductive CommandEnds (i : Instr) (s : State) : Result → Prop
  | normal (u : State) (r0 r1 : Half) (f : Bool) : CommandEnds i s (.next (finished u .noError 0 r0 r1 f))
  | refused (e : ErrCode) (info : BitVec 4) (h : allowedEnd i e info = true) :
      CommandEnds i s (.next (finished s e info 0 0 false))
  | noDive (u : State) (h : i = .exportRun) : CommandEnds i s (.next (finished u .diveCountNull 0 0 0 false))
  | underWay (t : State) (hbusy : t.busy = s.busy) (herr : t.err = s.err) : CommandEnds i s (.next t)

theorem CommandEnds.exists_next {i : Instr} {s : State} {r : Result} (h : CommandEnds i s r) :
    ∃ t, r = .next t := by
  cases h <;> exact ⟨_, rfl⟩

theorem appendWhole_ends {i : Instr} (s : State) (bs : List Byte) (h : allowedEnd i .bufferOverflow 1 = true) :
    CommandEnds i s (appendWhole s bs) := by
  unfold appendWhole
  split
  · exact .refused _ _ h
  · exact .normal _ _ _ _

theorem logidx_ends (s : State) : CommandEnds .logidx s (exec .logidx s) := by
  cases hn : s.diveIndex with
  | none => exact exec_logidx_malformed hn ▸ .refused _ _ rfl
  | some n => exact exec_logidx_dive hn ▸ .normal _ _ _ _

theorem proffind_ends (s : State) : CommandEnds .proffind s (exec .proffind s) := by
  cases hn : s.diveIndex with
  | none => exact exec_proffind_malformed hn ▸ .refused _ _ rfl
  | some n =>
    cases hp : profileSegment s.img n with
    | none => exact exec_proffind_notFound hn hp ▸ .normal _ _ _ _
    | some p => exact exec_proffind_found hn hp ▸ .normal _ _ _ _

theorem wrprof_ends (s : State) : CommandEnds .wrprof s (exec .wrprof s) := by
  rcases Nat.lt_or_ge s.arg0.toNat 0x600 with hin | hout
  · exact exec_wrprof_inside hin ▸ appendWhole_ends s _ rfl
  · exact exec_wrprof_outside hout ▸ .refused _ _ rfl

theorem msgenc_ends (s : State) : CommandEnds .msgenc s (exec .msgenc s) := by
  rw [exec_msgenc]
  split
  · exact .normal _ _ _ _
  · split
    · exact .refused _ _ rfl
    · split
      · exact .refused _ _ rfl
      · exact .normal _ _ _ _

theorem pktsend_ends (s : State) : CommandEnds .pktsend s (exec .pktsend s) := by
  rw [exec_pktsend]
  split
  · exact .normal _ _ _ _
  · exact .underWay _ rfl rfl

theorem bulksend_ends (s : State) : CommandEnds .bulksend s (exec .bulksend s) := by
  by_cases h : s.sb = []
  · exact exec_bulksend_empty h ▸ .normal _ _ _ _
  · exact exec_bulksend_nonempty h ▸ .underWay _ rfl rfl

theorem envclose_ends (s : State) : CommandEnds .envclose s (exec .envclose s) := by
  rw [exec_envclose]
  split
  · exact .refused _ _ rfl
  · split
    · exact .refused _ _ rfl
    · exact .normal _ _ _ _

theorem export_ends (s : State) : CommandEnds .exportRun s (execExport s) := by
  rw [execExport_eq]
  split
  · exact .noDive (exportOpened s) rfl
  · exact .underWay (exportOpened s) rfl rfl

/-- Every command on every state ends in one of the four ways; in particular it has a next state. -/
theorem exec_ends (i : Instr) (s : State) : CommandEnds i s (exec i s) := by
  cases i with
  | sbclr => exact .normal s.clearStaging 0 0 false
  | totcnt => exact exec_totcnt s ▸ .normal _ _ _ _
  | stocnt => exact exec_stocnt s ▸ .normal _ _ _ _
  | logidx => exact logidx_ends s
  | profend => exact exec_profend s ▸ .normal _ _ _ _
  | proffind => exact proffind_ends s
  | logvalid => exact exec_logvalid s ▸ .normal _ _ _ _
  | profvalid => exact exec_profvalid s ▸ .normal _ _ _ _
  | wrlog => exact exec_wrlog s ▸ appendWhole_ends s _ rfl
  | wrprof => exact wrprof_ends s
  | wrident => exact exec_wrident s ▸ appendWhole_ends s _ rfl
  | msgenc => exact msgenc_ends s
  | pktsend => exact pktsend_ends s
  | bulksend => exact bulksend_ends s
  | envopen => exact exec_envopen s ▸ .normal _ _ _ _
  | envclose => exact envclose_ends s
  | exportRun => exact export_ends s

/-- Settles O45, by the way the command ends: one that goes on keeps BUSY. -/
theorem commandsEndWithTheirOwnCodes : Obligations.CommandsEndWithTheirOwnCodes := by
  intro i s t hb h hidle
  have hends : CommandEnds i s (.next t) := h ▸ exec_ends i s
  cases hends with
  | normal => exact ⟨rfl, rfl⟩
  | refused e info hallowed => exact ⟨hallowed, rfl⟩
  | noDive u hi => exact ⟨hi ▸ rfl, rfl⟩
  | underWay _ hbusy => exact nomatch (hbusy.trans hb).symm.trans hidle

/-- Settles O46: of the ways a command can end, only the refusal has one of these two errors. -/
theorem refusedCommandsChangeNothingElse : Obligations.RefusedCommandsChangeNothingElse := by
  intro i s t hs h herr
  have hends : CommandEnds i s (.next t) := h ▸ exec_ends i s
  cases hends with
  | normal => exact nomatch herr
  | refused => rfl
  | noDive => exact nomatch herr
  | underWay _ _ hkept =>
    rw [hkept.trans hs] at herr
    exact nomatch herr

/-- Settles O47: each of a command's ends is a next state. -/
theorem noCommandCrashes : Obligations.NoCommandCrashes := fun i s => (exec_ends i s).exists_next

/-! ## Every step has a next state (60_exceptions.md rule R148) -/

theorem stageStep_exists_next (s : State) : ∃ t, s.stageStep = .next t := by
  cases hi : s.imageChanged with
  | false =>
    cases hp : profileSegment s.img s.dive.toNat with
    | none => exact ⟨_, stageStep_notFound hi hp⟩
    | some p => exact ⟨_, stageStep_found hi hp⟩
  | true =>
    obtain ⟨_, _, _, -, -, ⟨-, hstop⟩ | ⟨-, hstaged⟩ | ⟨-, hfull⟩⟩ := stageStep_changed s hi
    · exact ⟨_, hstop⟩
    · exact ⟨_, hstaged⟩
    · exact ⟨_, hfull⟩

theorem sequencerStep_exists_next (s : State) : ∃ t, s.sequencerStep = .next t := by
  cases hb : s.busy with
  | false => exact ⟨_, sequencer_idle hb⟩
  | true =>
    cases ht : s.tstate with
    | idle => exact sequencer_staging hb ht ▸ stageStep_exists_next s
    | sending => exact ⟨_, sequencer_sending hb ht⟩
    | awaitingAck => exact ⟨_, sequencer_waiting hb ht⟩
    | done => exact ⟨s, by simp [State.sequencerStep, ht]⟩
    | failed => exact ⟨s, by simp [State.sequencerStep, ht]⟩

theorem issueCommand_exists_next (s : State) (v : Half) : ∃ t, issueCommand s v = .next t := by
  cases hd : decode v with
  | ok i => exact issueCommand_ok hd ▸ noCommandCrashes i (s.accept v)
  | error w => exact ⟨_, issueCommand_error hd⟩

theorem hostWrite_exists_next (s : State) (r : HostReg) (v : Half) : ∃ t, hostWrite s r v = .next t := by
  unfold hostWrite
  split
  · exact ⟨s, rfl⟩
  · split
    · exact issueCommand_exists_next s v
    · exact ⟨_, rfl⟩

theorem act_exists_next (s : State) (e : Event) : ∃ t, act s e = .next t := by
  cases e with
  | hostWrite r v => exact hostWrite_exists_next s r v
  | turn => exact sequencerStep_exists_next s
  | hostRead | rst | arrive | advance | txReady | imageByte => exact ⟨_, rfl⟩

/-- Settles O48: by the environment's next action, or the sequencer's turn where there is none. -/
theorem noStateStopsTheMachine : Obligations.NoStateStopsTheMachine := by
  intro s
  cases he : s.env with
  | nil => exact step_nil he ▸ sequencerStep_exists_next s
  | cons e rest => exact step_cons he ▸ act_exists_next _ e

end Sys2Proof.Proofs
end


section
/-! Reset and the waiting block: a step that changes nothing, what `rst` clears, and what the environment's actions leave
of an idle block (70_reset_and_hazards.md). -/

namespace Sys2Proof.Proofs

open Sys2Proof Sys2Proof.Machine Sys2Proof.Safety

/-! ## A state that a step leaves as it is -/

theorem run_of_step_self {s : State} (h : step s = .next s) (n : Nat) : Host.Core.run core n s = .next s := by
  induction n with
  | zero => exact run_zero s
  | succ n ih => exact (run_succ n h).trans ih

theorem step_idle_silent {s : State} (hb : s.busy = false) (he : s.env = []) : step s = .next s :=
  (step_nil he).trans (sequencer_idle hb)

/-- A byte that the transport does not accept waits (70_reset_and_hazards.md rule R163). -/
theorem emitStep_unready {s : State} (h : s.txpos < s.fb.length) (hr : s.txReady = false) : s.emitStep = s := by
  simp [State.emitStep, List.getElem?_eq_getElem h, hr]

/-- Settles O26: the step of Sending is the waiting byte's, and it leaves the state. -/
theorem unreadyTransportHoldsTheBlock : Obligations.UnreadyTransportHoldsTheBlock := by
  intro s n hb ht hpos hready he
  have hstep : step s = .next s := by
    rw [step_nil he, sequencer_sending hb ht, emitStep_unready hpos hready]
  exact run_of_step_self hstep n

/-! ## Reset (70_reset_and_hazards.md rules R150, R151) -/

theorem step_rst {s : State} {rest : List Event} (he : s.env = .rst :: rest) :
    step s = .next ({ s with env := rest } : State).resetBlock := step_cons he

/-- Settles O55: each register by its lemma about `State.resetBlock`. -/
theorem resetClearsTheBlock : Obligations.ResetClearsTheBlock := by
  intro s rest he
  exact ⟨_, step_rst he, by simp [State.reset]⟩

/-! ## The idle block (70_reset_and_hazards.md rule R152) -/

/-- In `t` the block is idle and has sent no byte since `s`; its status, its results and its packet are those of `s`. -/
structure StaysIdle (s t : State) : Prop where
  busy : t.busy = false
  tx : t.tx = s.tx
  done : t.done = s.done
  err : t.err = s.err
  flag : t.flag = s.flag
  tstate : t.tstate = s.tstate
  res0 : t.res0 = s.res0
  res1 : t.res1 = s.res1
  errinfo : t.errinfo = s.errinfo
  dive : t.dive = s.dive
  fb : t.fb = s.fb
  retry : t.retry = s.retry
  choff : t.choff = s.choff

theorem staysIdle_refl {s : State} (hb : s.busy = false) : StaysIdle s s :=
  ⟨hb, rfl, rfl, rfl, rfl, rfl, rfl, rfl, rfl, rfl, rfl, rfl, rfl⟩

theorem staysIdle_movePointer {s : State} (hb : s.busy = false) (r : HostReg) : StaysIdle s (s.movePointer r) := by
  have hs := staysIdle_refl hb
  by_cases hsb : r = .sbdata
  · rw [hsb, movePointer_sbdata hb]
    exact { hs with }
  · by_cases hfb : r = .fbdata
    · rw [hfb, movePointer_fbdata hb]
      exact { hs with }
    · rwa [movePointer_register hsb hfb]

theorem staysIdle_hostRead {s : State} (hb : s.busy = false) (r : HostReg) : StaysIdle s (s.hostRead r) := by
  have hmove := staysIdle_movePointer hb r
  cases hread : s.definedRead r with
  | some v =>
    rw [hostRead_defined hread]
    exact { hmove with }
  | none =>
    rw [hostRead_free hread]
    exact { hmove with }

theorem staysIdle_writeSbdata {s : State} (hb : s.busy = false) (v : Half) : StaysIdle s (s.writeSbdata v) := by
  have hs := staysIdle_refl hb
  unfold State.writeSbdata
  split
  · exact { hs with }
  · exact hs

theorem staysIdle_writeReg {s : State} (hb : s.busy = false) (r : HostReg) (v : Half) :
    StaysIdle s (s.writeReg r v) := by
  have hs := staysIdle_refl hb
  cases r with
  | arg0 | arg1 | sbptr | fbptr => exact { hs with }
  | sbdata => exact staysIdle_writeSbdata hb v
  | cmd | status | res0 | res1 | errinfo | dive | sblen | fblen | fbdata | retry | choff => exact hs

/-- Only a staging EXPORT can tell a byte at the image port. -/
theorem staysIdle_presentByte {s : State} (hb : s.busy = false) (a : Nat) (b : Byte) :
    StaysIdle s (s.presentByte a b) := by
  rw [presentByte_quiet fun hstaging => nomatch hb.symm.trans hstaging.1]
  exact { staysIdle_refl hb with }

/-- Every action but a write of `CMD` and `rst` leaves the block idle, with its results. -/
theorem step_staysIdle {s : State} {e : Event} {rest : List Event} (hb : s.busy = false) (he : s.env = e :: rest)
    (hcmd : ∀ v, e ≠ .hostWrite .cmd v) (hrst : e ≠ .rst) : ∃ t, step s = .next t ∧ StaysIdle s t := by
  have hs := staysIdle_refl hb
  cases e with
  | hostWrite r v =>
    have hr : r ≠ .cmd := by
      rintro rfl
      exact hcmd v rfl
    exact ⟨_, step_hostWrite_idle hb he hr, { staysIdle_writeReg (s := { s with env := rest }) hb r v with }⟩
  | hostRead r => exact ⟨_, step_hostRead he, { staysIdle_hostRead (s := { s with env := rest }) hb r with }⟩
  | rst => exact absurd rfl hrst
  | arrive | advance | txReady => exact ⟨_, step_cons he, { hs with }⟩
  | imageByte a b =>
    exact ⟨_, step_cons he, { staysIdle_presentByte (s := { s with env := rest }) hb a.toNat b with }⟩
  | turn => exact ⟨_, (step_cons he).trans (sequencer_idle hb), { hs with }⟩

/-- Settles O56: an idle block's own step leaves the state; of the actions, `rst` leaves it idle, the others with its
results too. -/
theorem idleBlockWaits : Obligations.IdleBlockWaits := by
  refine ⟨run_of_step_self (step_idle_silent rfl rfl), fun s hb he => step_idle_silent hb he,
    fun s rest hb he => (step_cons he).trans (sequencer_idle hb), fun s e rest hb he hcmd => ?_⟩
  by_cases hrst : e = .rst
  · subst hrst
    exact ⟨_, step_rst he, rfl, rfl, fun hne => absurd rfl hne⟩
  · obtain ⟨t, hstep, h⟩ := step_staysIdle hb he hcmd hrst
    exact ⟨t, hstep, h.busy, h.tx, fun _ => ⟨h.done, h.err, h.flag, h.tstate, h.res0, h.res1, h.errinfo, h.dive, h.fb,
      h.retry, h.choff⟩⟩

end Sys2Proof.Proofs
end
